-- ==== Sys2Proof/Word.lean ====
section
/-! DEFINITION. The words of the machine: a stream byte (rule R6, BYTE_W = 8) and an assembled 16-bit operand
(rule R92). -/

namespace Sys2Proof

/-- A stream byte or an opcode byte: 8 bits, 0 to 255 (R6, R7). -/
abbrev Byte := BitVec 8

/-- An assembled two-byte operand: 16 bits, 0 to 65535 (R8, R82). -/
abbrev Word := BitVec 16

end Sys2Proof
end

