-- ==== Sys2Proof/Config.lean ====
section
/-! DEFINITION. The implementation parameters of the block, rule R6: all of them constants of the design (R24).
The spec leaves no value open that an instruction computes, so there is no free value here. -/

namespace Sys2Proof.Config

/-- MAX_RENDER_ADDR: the largest instruction address with a defined rendering (R6, R120; the spec's decision D2). -/
def maxRenderAddr : Nat := 0xFFFF

/-- MNEM_W: the minimum width of the mnemonic field when an operand text follows (R6, R113; the spec's decision D6). -/
def mnemonicWidth : Nat := 7

/-- UNKNOWN_SET: the opcode bytes without an instruction (R6, R96; the spec's decision D3). -/
def unknownSet : List Byte :=
  [0x08, 0x10, 0x18, 0x20, 0x28, 0x30, 0x38, 0xCB, 0xD9, 0xDD, 0xED, 0xFD]

end Sys2Proof.Config
end

