-- ==== Sys2Proof/Syntax.lean ====
section
/-! DEFINITION. The instructions of the block: one constructor per mnemonic of `spec/opcode_table.json`, with the opcode
fields and the operand value the instruction carries (R81, R82, R84). The twelve UNKNOWN rows of the table are the one
kind `Unknown(byte)`, "carrying the raw byte" (R84, R270): the one constructor `unknown` (log entry 15).
The mnemonic IN is the constructor `inp`, because `in` is a word of Lean. -/

namespace Sys2Proof

/-- An instruction of the stream: what the classifier and the operand decoder make of its bytes. -/
inductive Instr where
  -- `41_no_operand.md`: instructions without operand field and without operand byte
  /-- NOP: no operand (R160). -/
  | nop
  /-- HLT: no operand (R161). -/
  | hlt
  /-- RLC: no operand (R162). -/
  | rlc
  /-- RRC: no operand (R163). -/
  | rrc
  /-- RAL: no operand (R164). -/
  | ral
  /-- RAR: no operand (R165). -/
  | rar
  /-- DAA: no operand (R166). -/
  | daa
  /-- CMA: no operand (R167). -/
  | cma
  /-- STC: no operand (R168). -/
  | stc
  /-- CMC: no operand (R169). -/
  | cmc
  /-- XCHG: no operand (R170). -/
  | xchg
  /-- XTHL: no operand (R171). -/
  | xthl
  /-- PCHL: no operand (R172). -/
  | pchl
  /-- SPHL: no operand (R173). -/
  | sphl
  /-- DI: no operand (R174). -/
  | di
  /-- EI: no operand (R175). -/
  | ei
  -- `42_register_pair.md`: register-pair instructions
  /-- LXI: pair field, 16-bit immediate (R181). -/
  | lxi (p : BitVec 2) (v : Word)
  /-- STAX: pair bit (B or D) (R182). -/
  | stax (p : BitVec 1)
  /-- LDAX: pair bit (B or D) (R183). -/
  | ldax (p : BitVec 1)
  /-- INX: pair field, arithmetic context (R184). -/
  | inx (p : BitVec 2)
  /-- DCX: pair field, arithmetic context (R185). -/
  | dcx (p : BitVec 2)
  /-- DAD: pair field, arithmetic context (R186). -/
  | dad (p : BitVec 2)
  /-- POP: pair field, stack context (R187). -/
  | pop (p : BitVec 2)
  /-- PUSH: pair field, stack context (R188). -/
  | push (p : BitVec 2)
  -- `43_register.md`: single-register, move and register-arithmetic instructions
  /-- INR: register field b[5:3] (R191). -/
  | inr (r : BitVec 3)
  /-- DCR: register field b[5:3] (R192). -/
  | dcr (r : BitVec 3)
  /-- MVI: register field, 8-bit immediate (R193). -/
  | mvi (r : BitVec 3) (v : Byte)
  /-- MOV: destination and source fields (R194). -/
  | mov (d s : BitVec 3)
  /-- ADD: register field b[2:0] (R195). -/
  | add (r : BitVec 3)
  /-- ADC: register field b[2:0] (R196). -/
  | adc (r : BitVec 3)
  /-- SUB: register field b[2:0] (R197). -/
  | sub (r : BitVec 3)
  /-- SBB: register field b[2:0] (R198). -/
  | sbb (r : BitVec 3)
  /-- ANA: register field b[2:0] (R199). -/
  | ana (r : BitVec 3)
  /-- XRA: register field b[2:0] (R200). -/
  | xra (r : BitVec 3)
  /-- ORA: register field b[2:0] (R201). -/
  | ora (r : BitVec 3)
  /-- CMP: register field b[2:0] (R202). -/
  | cmp (r : BitVec 3)
  -- `44_immediate.md`: immediate-operand and input/output instructions
  /-- ADI: one operand byte (R211). -/
  | adi (v : Byte)
  /-- ACI: one operand byte (R212). -/
  | aci (v : Byte)
  /-- SUI: one operand byte (R213). -/
  | sui (v : Byte)
  /-- SBI: one operand byte (R214). -/
  | sbi (v : Byte)
  /-- ANI: one operand byte (R215). -/
  | ani (v : Byte)
  /-- XRI: one operand byte (R216). -/
  | xri (v : Byte)
  /-- ORI: one operand byte (R217). -/
  | ori (v : Byte)
  /-- CPI: one operand byte (R218). -/
  | cpi (v : Byte)
  /-- IN: one operand byte (R219). -/
  | inp (v : Byte)
  /-- OUT: one operand byte (R220). -/
  | out (v : Byte)
  -- `45_direct_address.md`: direct-address load and store instructions
  /-- LDA: a 16-bit address (R226). -/
  | lda (addr : Word)
  /-- STA: a 16-bit address (R227). -/
  | sta (addr : Word)
  /-- LHLD: a 16-bit address (R228). -/
  | lhld (addr : Word)
  /-- SHLD: a 16-bit address (R229). -/
  | shld (addr : Word)
  -- `46_control_transfer.md`: control-transfer instructions, printed and never followed (R230)
  /-- JMP: a 16-bit address (R231). -/
  | jmp (addr : Word)
  /-- JNZ: a 16-bit address (R232). -/
  | jnz (addr : Word)
  /-- JZ: a 16-bit address (R233). -/
  | jz (addr : Word)
  /-- JNC: a 16-bit address (R234). -/
  | jnc (addr : Word)
  /-- JC: a 16-bit address (R235). -/
  | jc (addr : Word)
  /-- JPO: a 16-bit address (R236). -/
  | jpo (addr : Word)
  /-- JPE: a 16-bit address (R237). -/
  | jpe (addr : Word)
  /-- JP: a 16-bit address (R238). -/
  | jp (addr : Word)
  /-- JM: a 16-bit address (R239). -/
  | jm (addr : Word)
  /-- CALL: a 16-bit address (R240). -/
  | call (addr : Word)
  /-- CNZ: a 16-bit address (R241). -/
  | cnz (addr : Word)
  /-- CZ: a 16-bit address (R242). -/
  | cz (addr : Word)
  /-- CNC: a 16-bit address (R243). -/
  | cnc (addr : Word)
  /-- CC: a 16-bit address (R244). -/
  | cc (addr : Word)
  /-- CPO: a 16-bit address (R245). -/
  | cpo (addr : Word)
  /-- CPE: a 16-bit address (R246). -/
  | cpe (addr : Word)
  /-- CP: a 16-bit address (R247). -/
  | cp (addr : Word)
  /-- CM: a 16-bit address (R248). -/
  | cm (addr : Word)
  /-- RET: no operand (R249). -/
  | ret
  /-- RNZ: no operand (R250). -/
  | rnz
  /-- RZ: no operand (R251). -/
  | rz
  /-- RNC: no operand (R252). -/
  | rnc
  /-- RC: no operand (R253). -/
  | rc
  /-- RPO: no operand (R254). -/
  | rpo
  /-- RPE: no operand (R255). -/
  | rpe
  /-- RP: no operand (R256). -/
  | rp
  /-- RM: no operand (R257). -/
  | rm
  /-- RST: vector field (R258). -/
  | rst (n : BitVec 3)
  -- `47_unknown.md`: Unknown instruction kind
  /-- UNKNOWN: the raw opcode byte (R271). -/
  | unknown (raw : Byte)
  deriving DecidableEq, Repr

end Sys2Proof
end

