-- ==== Sys2Proof/WellFormed.lean ====
section
/-! DEFINITION. Which terms of `Instr` are instructions of the block. Every field value and every operand value is legal
(R96, U12) but for two cases: `MOV M,M`, whose byte 0x76 is HLT (R86, R194), and an `unknown` whose raw byte some rule
of R87 matches (R96, R271). -/

namespace Sys2Proof

/-- The well-formedness check of an instruction. -/
def wellFormed : Instr → Bool
  | .mov d s => !(d == 6 && s == 6)
  | .unknown raw => Config.unknownSet.contains raw
  | .nop => true
  | .hlt => true
  | .rlc => true
  | .rrc => true
  | .ral => true
  | .rar => true
  | .daa => true
  | .cma => true
  | .stc => true
  | .cmc => true
  | .xchg => true
  | .xthl => true
  | .pchl => true
  | .sphl => true
  | .di => true
  | .ei => true
  | .lxi _ _ => true
  | .stax _ => true
  | .ldax _ => true
  | .inx _ => true
  | .dcx _ => true
  | .dad _ => true
  | .pop _ => true
  | .push _ => true
  | .inr _ => true
  | .dcr _ => true
  | .mvi _ _ => true
  | .add _ => true
  | .adc _ => true
  | .sub _ => true
  | .sbb _ => true
  | .ana _ => true
  | .xra _ => true
  | .ora _ => true
  | .cmp _ => true
  | .adi _ => true
  | .aci _ => true
  | .sui _ => true
  | .sbi _ => true
  | .ani _ => true
  | .xri _ => true
  | .ori _ => true
  | .cpi _ => true
  | .inp _ => true
  | .out _ => true
  | .lda _ => true
  | .sta _ => true
  | .lhld _ => true
  | .shld _ => true
  | .jmp _ => true
  | .jnz _ => true
  | .jz _ => true
  | .jnc _ => true
  | .jc _ => true
  | .jpo _ => true
  | .jpe _ => true
  | .jp _ => true
  | .jm _ => true
  | .call _ => true
  | .cnz _ => true
  | .cz _ => true
  | .cnc _ => true
  | .cc _ => true
  | .cpo _ => true
  | .cpe _ => true
  | .cp _ => true
  | .cm _ => true
  | .ret => true
  | .rnz => true
  | .rz => true
  | .rnc => true
  | .rc => true
  | .rpo => true
  | .rpe => true
  | .rp => true
  | .rm => true
  | .rst _ => true

end Sys2Proof
end

