-- ==== Sys2Proof/Decode.lean ====
section
/-! DEFINITION. The opcode classifier and the operand decoder (`30_encoding.md` sections 1 to 3), and after them the
encoder. `rules` is the rule set R87 in priority order; `classify` is R83; `decode` reads one instruction from the bytes
at hand and rejects, by name, only a list of bytes that ends inside an instruction. -/

namespace Sys2Proof

/-- The thirteen operand shapes of R84. -/
inductive Shape where
  | none | regD | regS | mov | rpArith | rpBD | rpStack | rst | imm8 | regImm8 | rpImm16 | addr16 | unknown
  deriving DecidableEq, Repr

/-- The decoded opcode fields of a shape, column "fields" of R84. -/
inductive Fields where
  | none
  /-- A register field, `b[5:3]` or `b[2:0]`. -/
  | reg (r : BitVec 3)
  /-- Destination `b[5:3]` and source `b[2:0]` of MOV. -/
  | regs (d s : BitVec 3)
  /-- A register-pair field `b[5:4]`. -/
  | pair (p : BitVec 2)
  /-- The pair bit `b[4]` of STAX and LDAX. -/
  | pairBit (p : BitVec 1)
  /-- The RST vector `b[5:3]` and its target `n × 8` (R146, R258). -/
  | vector (n : BitVec 3) (target : Nat)
  /-- The raw byte of an Unknown opcode. -/
  | raw (b : Byte)
  deriving DecidableEq, Repr

/-- An InstructionKind: the triple of R84. -/
structure Kind where
  mnemonic : String
  shape    : Shape
  fields   : Fields
  deriving DecidableEq, Repr

/-- One row of the rule set R87: a byte `b` is selected when `(b & mask) == pattern` (R7); `build` makes the instruction
of the opcode byte and its operand bytes. -/
structure Rule where
  mnemonic : String
  mask     : Byte
  pattern  : Byte
  shape    : Shape
  build    : Byte → List Byte → Instr

/-- Why `decode` rejects a list of bytes: there is no opcode byte, or the opcode's operand bytes are not all there. -/
inductive DecodeError where
  | noOpcode
  | missingOperand (opcode : Byte) (present : Nat)
  deriving DecidableEq, Repr

/-! ## Bit fields and operand bytes (R7, R92, R93) -/

/-- `b[5:3]`. -/
def bits53 (b : Byte) : BitVec 3 := b.extractLsb' 3 3

/-- `b[2:0]`. -/
def bits20 (b : Byte) : BitVec 3 := b.extractLsb' 0 3

/-- `b[5:4]`. -/
def bits54 (b : Byte) : BitVec 2 := b.extractLsb' 4 2

/-- `b[4]`. -/
def bit4 (b : Byte) : BitVec 1 := b.extractLsb' 4 1

/-- The low-order byte of a 16-bit operand, the first one in the stream (R60). -/
def lowByte (w : Word) : Byte := w.extractLsb' 0 8

/-- The high-order byte of a 16-bit operand, the second one in the stream (R60). -/
def highByte (w : Word) : Byte := w.extractLsb' 8 8

/-- The one-byte operand `ops[0]` (R92). -/
def imm8 (ops : List Byte) : Byte := ops.getD 0 0

/-- The two-byte operand `ops[1] × 256 + ops[0]` (R92): the byte `ops[1]` stands above the byte `ops[0]`. -/
def imm16 (ops : List Byte) : Word := ops.getD 1 0 ++ ops.getD 0 0

/-- `oplen(shape)`, R90. -/
def oplen : Shape → Nat
  | .none | .regD | .regS | .mov | .rpArith | .rpBD | .rpStack | .rst | .unknown => 0
  | .imm8 | .regImm8 => 1
  | .rpImm16 | .addr16 => 2

/-- The RST target: "target = vector×8" (R146, R258). It is part of the kind and is never printed or followed. -/
def rstTarget (n : BitVec 3) : Nat := n.toNat * 8

/-- The fields a shape has, taken from the opcode byte (R84, R93). -/
def fieldsOf (shape : Shape) (b : Byte) : Fields :=
  match shape with
  | .none | .imm8 | .addr16 => .none
  | .regD | .regImm8 => .reg (bits53 b)
  | .regS => .reg (bits20 b)
  | .mov => .regs (bits53 b) (bits20 b)
  | .rpArith | .rpStack | .rpImm16 => .pair (bits54 b)
  | .rpBD => .pairBit (bit4 b)
  | .rst => .vector (bits53 b) (rstTarget (bits53 b))
  | .unknown => .raw b

/-! ## The rule set (R87) -/

/-- The rule selects the byte (R7, R81). -/
def Rule.selects (r : Rule) (b : Byte) : Bool := (b &&& r.mask) == r.pattern

/-- Group 1 of R87: the exact bytes of `41_no_operand.md`. -/
def noOperandRules : List Rule :=
  [ ⟨"NOP", 0xFF, 0x00, .none, fun _ _ => .nop⟩
  , ⟨"HLT", 0xFF, 0x76, .none, fun _ _ => .hlt⟩
  , ⟨"RLC", 0xFF, 0x07, .none, fun _ _ => .rlc⟩
  , ⟨"RRC", 0xFF, 0x0F, .none, fun _ _ => .rrc⟩
  , ⟨"RAL", 0xFF, 0x17, .none, fun _ _ => .ral⟩
  , ⟨"RAR", 0xFF, 0x1F, .none, fun _ _ => .rar⟩
  , ⟨"DAA", 0xFF, 0x27, .none, fun _ _ => .daa⟩
  , ⟨"CMA", 0xFF, 0x2F, .none, fun _ _ => .cma⟩
  , ⟨"STC", 0xFF, 0x37, .none, fun _ _ => .stc⟩
  , ⟨"CMC", 0xFF, 0x3F, .none, fun _ _ => .cmc⟩
  , ⟨"XCHG", 0xFF, 0xEB, .none, fun _ _ => .xchg⟩
  , ⟨"XTHL", 0xFF, 0xE3, .none, fun _ _ => .xthl⟩
  , ⟨"PCHL", 0xFF, 0xE9, .none, fun _ _ => .pchl⟩
  , ⟨"SPHL", 0xFF, 0xF9, .none, fun _ _ => .sphl⟩
  , ⟨"DI", 0xFF, 0xF3, .none, fun _ _ => .di⟩
  , ⟨"EI", 0xFF, 0xFB, .none, fun _ _ => .ei⟩ ]

/-- Group 1 of R87: the exact bytes of `44_immediate.md`. -/
def immediateRules : List Rule :=
  [ ⟨"ADI", 0xFF, 0xC6, .imm8, fun _ ops => .adi (imm8 ops)⟩
  , ⟨"ACI", 0xFF, 0xCE, .imm8, fun _ ops => .aci (imm8 ops)⟩
  , ⟨"SUI", 0xFF, 0xD6, .imm8, fun _ ops => .sui (imm8 ops)⟩
  , ⟨"SBI", 0xFF, 0xDE, .imm8, fun _ ops => .sbi (imm8 ops)⟩
  , ⟨"ANI", 0xFF, 0xE6, .imm8, fun _ ops => .ani (imm8 ops)⟩
  , ⟨"XRI", 0xFF, 0xEE, .imm8, fun _ ops => .xri (imm8 ops)⟩
  , ⟨"ORI", 0xFF, 0xF6, .imm8, fun _ ops => .ori (imm8 ops)⟩
  , ⟨"CPI", 0xFF, 0xFE, .imm8, fun _ ops => .cpi (imm8 ops)⟩
  , ⟨"IN", 0xFF, 0xDB, .imm8, fun _ ops => .inp (imm8 ops)⟩
  , ⟨"OUT", 0xFF, 0xD3, .imm8, fun _ ops => .out (imm8 ops)⟩ ]

/-- Group 1 of R87: the exact bytes of `45_direct_address.md`. -/
def directAddressRules : List Rule :=
  [ ⟨"LDA", 0xFF, 0x3A, .addr16, fun _ ops => .lda (imm16 ops)⟩
  , ⟨"STA", 0xFF, 0x32, .addr16, fun _ ops => .sta (imm16 ops)⟩
  , ⟨"LHLD", 0xFF, 0x2A, .addr16, fun _ ops => .lhld (imm16 ops)⟩
  , ⟨"SHLD", 0xFF, 0x22, .addr16, fun _ ops => .shld (imm16 ops)⟩ ]

/-- Group 1 of R87: the exact bytes of the jumps (R231 to R239). -/
def jumpRules : List Rule :=
  [ ⟨"JMP", 0xFF, 0xC3, .addr16, fun _ ops => .jmp (imm16 ops)⟩
  , ⟨"JNZ", 0xFF, 0xC2, .addr16, fun _ ops => .jnz (imm16 ops)⟩
  , ⟨"JZ", 0xFF, 0xCA, .addr16, fun _ ops => .jz (imm16 ops)⟩
  , ⟨"JNC", 0xFF, 0xD2, .addr16, fun _ ops => .jnc (imm16 ops)⟩
  , ⟨"JC", 0xFF, 0xDA, .addr16, fun _ ops => .jc (imm16 ops)⟩
  , ⟨"JPO", 0xFF, 0xE2, .addr16, fun _ ops => .jpo (imm16 ops)⟩
  , ⟨"JPE", 0xFF, 0xEA, .addr16, fun _ ops => .jpe (imm16 ops)⟩
  , ⟨"JP", 0xFF, 0xF2, .addr16, fun _ ops => .jp (imm16 ops)⟩
  , ⟨"JM", 0xFF, 0xFA, .addr16, fun _ ops => .jm (imm16 ops)⟩ ]

/-- Group 1 of R87: the exact bytes of the calls (R240 to R248). -/
def callRules : List Rule :=
  [ ⟨"CALL", 0xFF, 0xCD, .addr16, fun _ ops => .call (imm16 ops)⟩
  , ⟨"CNZ", 0xFF, 0xC4, .addr16, fun _ ops => .cnz (imm16 ops)⟩
  , ⟨"CZ", 0xFF, 0xCC, .addr16, fun _ ops => .cz (imm16 ops)⟩
  , ⟨"CNC", 0xFF, 0xD4, .addr16, fun _ ops => .cnc (imm16 ops)⟩
  , ⟨"CC", 0xFF, 0xDC, .addr16, fun _ ops => .cc (imm16 ops)⟩
  , ⟨"CPO", 0xFF, 0xE4, .addr16, fun _ ops => .cpo (imm16 ops)⟩
  , ⟨"CPE", 0xFF, 0xEC, .addr16, fun _ ops => .cpe (imm16 ops)⟩
  , ⟨"CP", 0xFF, 0xF4, .addr16, fun _ ops => .cp (imm16 ops)⟩
  , ⟨"CM", 0xFF, 0xFC, .addr16, fun _ ops => .cm (imm16 ops)⟩ ]

/-- Group 1 of R87: the exact bytes of the returns (R249 to R257). -/
def returnRules : List Rule :=
  [ ⟨"RET", 0xFF, 0xC9, .none, fun _ _ => .ret⟩
  , ⟨"RNZ", 0xFF, 0xC0, .none, fun _ _ => .rnz⟩
  , ⟨"RZ", 0xFF, 0xC8, .none, fun _ _ => .rz⟩
  , ⟨"RNC", 0xFF, 0xD0, .none, fun _ _ => .rnc⟩
  , ⟨"RC", 0xFF, 0xD8, .none, fun _ _ => .rc⟩
  , ⟨"RPO", 0xFF, 0xE0, .none, fun _ _ => .rpo⟩
  , ⟨"RPE", 0xFF, 0xE8, .none, fun _ _ => .rpe⟩
  , ⟨"RP", 0xFF, 0xF0, .none, fun _ _ => .rp⟩
  , ⟨"RM", 0xFF, 0xF8, .none, fun _ _ => .rm⟩ ]

/-- Group 2 of R87: the masked families, in their priority order. -/
def familyRules : List Rule :=
  [ ⟨"LXI", 0xCF, 0x01, .rpImm16, fun b ops => .lxi (bits54 b) (imm16 ops)⟩
  , ⟨"STAX", 0xEF, 0x02, .rpBD, fun b _ => .stax (bit4 b)⟩
  , ⟨"LDAX", 0xEF, 0x0A, .rpBD, fun b _ => .ldax (bit4 b)⟩
  , ⟨"INX", 0xCF, 0x03, .rpArith, fun b _ => .inx (bits54 b)⟩
  , ⟨"DCX", 0xCF, 0x0B, .rpArith, fun b _ => .dcx (bits54 b)⟩
  , ⟨"DAD", 0xCF, 0x09, .rpArith, fun b _ => .dad (bits54 b)⟩
  , ⟨"INR", 0xC7, 0x04, .regD, fun b _ => .inr (bits53 b)⟩
  , ⟨"DCR", 0xC7, 0x05, .regD, fun b _ => .dcr (bits53 b)⟩
  , ⟨"MVI", 0xC7, 0x06, .regImm8, fun b ops => .mvi (bits53 b) (imm8 ops)⟩
  , ⟨"MOV", 0xC0, 0x40, .mov, fun b _ => .mov (bits53 b) (bits20 b)⟩
  , ⟨"ADD", 0xF8, 0x80, .regS, fun b _ => .add (bits20 b)⟩
  , ⟨"ADC", 0xF8, 0x88, .regS, fun b _ => .adc (bits20 b)⟩
  , ⟨"SUB", 0xF8, 0x90, .regS, fun b _ => .sub (bits20 b)⟩
  , ⟨"SBB", 0xF8, 0x98, .regS, fun b _ => .sbb (bits20 b)⟩
  , ⟨"ANA", 0xF8, 0xA0, .regS, fun b _ => .ana (bits20 b)⟩
  , ⟨"XRA", 0xF8, 0xA8, .regS, fun b _ => .xra (bits20 b)⟩
  , ⟨"ORA", 0xF8, 0xB0, .regS, fun b _ => .ora (bits20 b)⟩
  , ⟨"CMP", 0xF8, 0xB8, .regS, fun b _ => .cmp (bits20 b)⟩
  , ⟨"POP", 0xCF, 0xC1, .rpStack, fun b _ => .pop (bits54 b)⟩
  , ⟨"PUSH", 0xCF, 0xC5, .rpStack, fun b _ => .push (bits54 b)⟩
  , ⟨"RST", 0xC7, 0xC7, .rst, fun b _ => .rst (bits53 b)⟩ ]

/-- Group 1 of R87, the exact rules. Their order among themselves has no effect (R85, U7). -/
def exactRules : List Rule :=
  noOperandRules ++ immediateRules ++ directAddressRules ++ jumpRules ++ callRules ++ returnRules

/-- The rule set of R87 in its priority: the exact rules, then the masked families in order (R85). -/
def rules : List Rule := exactRules ++ familyRules

/-! ## The classifier (R83 to R86, R89) -/

/-- The kind the first rule of `rs` that selects `b` gives, and `UNKNOWN` when no rule does (R85, R89). -/
def classifyWith (rs : List Rule) (b : Byte) : Kind :=
  match rs.find? (·.selects b) with
  | some r => ⟨r.mnemonic, r.shape, fieldsOf r.shape b⟩
  | none => ⟨"UNKNOWN", .unknown, .raw b⟩

/-- `classify`, the OpcodeClassifier: a total function of the opcode byte (R83). -/
def classify (b : Byte) : Kind := classifyWith rules b

/-! ## The decoder -/

/-- The instruction of an opcode byte and its operand bytes. -/
def assemble (b : Byte) (ops : List Byte) : Instr :=
  match rules.find? (·.selects b) with
  | some r => r.build b ops
  | none => .unknown b

/-- One instruction from the front of a list of bytes, with the bytes after it (R80, R91, R98). Total on any bytes. -/
def decode : List Byte → Except DecodeError (Instr × List Byte)
  | [] => .error .noOpcode
  | b :: rest =>
    let n := oplen (classify b).shape
    if n ≤ rest.length then .ok (assemble b (rest.take n), rest.drop n)
    else .error (.missingOperand b rest.length)

/-! ## The encoder -/

/-- The bytes of a well-formed instruction, opcode first, a 16-bit operand low byte first, from the formats of R81 and
R82 and the `encoding` column of the opcode table. -/
def encode : Instr → List Byte
  | .nop => [0x00]
  | .hlt => [0x76]
  | .rlc => [0x07]
  | .rrc => [0x0F]
  | .ral => [0x17]
  | .rar => [0x1F]
  | .daa => [0x27]
  | .cma => [0x2F]
  | .stc => [0x37]
  | .cmc => [0x3F]
  | .xchg => [0xEB]
  | .xthl => [0xE3]
  | .pchl => [0xE9]
  | .sphl => [0xF9]
  | .di => [0xF3]
  | .ei => [0xFB]
  | .lxi p v => [0b00#2 ++ p ++ 0b0001#4, lowByte v, highByte v]
  | .stax p => [0b000#3 ++ p ++ 0b0010#4]
  | .ldax p => [0b000#3 ++ p ++ 0b1010#4]
  | .inx p => [0b00#2 ++ p ++ 0b0011#4]
  | .dcx p => [0b00#2 ++ p ++ 0b1011#4]
  | .dad p => [0b00#2 ++ p ++ 0b1001#4]
  | .pop p => [0b11#2 ++ p ++ 0b0001#4]
  | .push p => [0b11#2 ++ p ++ 0b0101#4]
  | .inr r => [0b00#2 ++ r ++ 0b100#3]
  | .dcr r => [0b00#2 ++ r ++ 0b101#3]
  | .mvi r v => [0b00#2 ++ r ++ 0b110#3, v]
  | .mov d s => [0b01#2 ++ d ++ s]
  | .add r => [0b10000#5 ++ r]
  | .adc r => [0b10001#5 ++ r]
  | .sub r => [0b10010#5 ++ r]
  | .sbb r => [0b10011#5 ++ r]
  | .ana r => [0b10100#5 ++ r]
  | .xra r => [0b10101#5 ++ r]
  | .ora r => [0b10110#5 ++ r]
  | .cmp r => [0b10111#5 ++ r]
  | .adi v => [0xC6, v]
  | .aci v => [0xCE, v]
  | .sui v => [0xD6, v]
  | .sbi v => [0xDE, v]
  | .ani v => [0xE6, v]
  | .xri v => [0xEE, v]
  | .ori v => [0xF6, v]
  | .cpi v => [0xFE, v]
  | .inp v => [0xDB, v]
  | .out v => [0xD3, v]
  | .lda addr => [0x3A, lowByte addr, highByte addr]
  | .sta addr => [0x32, lowByte addr, highByte addr]
  | .lhld addr => [0x2A, lowByte addr, highByte addr]
  | .shld addr => [0x22, lowByte addr, highByte addr]
  | .jmp addr => [0xC3, lowByte addr, highByte addr]
  | .jnz addr => [0xC2, lowByte addr, highByte addr]
  | .jz addr => [0xCA, lowByte addr, highByte addr]
  | .jnc addr => [0xD2, lowByte addr, highByte addr]
  | .jc addr => [0xDA, lowByte addr, highByte addr]
  | .jpo addr => [0xE2, lowByte addr, highByte addr]
  | .jpe addr => [0xEA, lowByte addr, highByte addr]
  | .jp addr => [0xF2, lowByte addr, highByte addr]
  | .jm addr => [0xFA, lowByte addr, highByte addr]
  | .call addr => [0xCD, lowByte addr, highByte addr]
  | .cnz addr => [0xC4, lowByte addr, highByte addr]
  | .cz addr => [0xCC, lowByte addr, highByte addr]
  | .cnc addr => [0xD4, lowByte addr, highByte addr]
  | .cc addr => [0xDC, lowByte addr, highByte addr]
  | .cpo addr => [0xE4, lowByte addr, highByte addr]
  | .cpe addr => [0xEC, lowByte addr, highByte addr]
  | .cp addr => [0xF4, lowByte addr, highByte addr]
  | .cm addr => [0xFC, lowByte addr, highByte addr]
  | .ret => [0xC9]
  | .rnz => [0xC0]
  | .rz => [0xC8]
  | .rnc => [0xD0]
  | .rc => [0xD8]
  | .rpo => [0xE0]
  | .rpe => [0xE8]
  | .rp => [0xF0]
  | .rm => [0xF8]
  | .rst n => [0b11#2 ++ n ++ 0b111#3]
  | .unknown raw => [raw]

/-! ## The table's words -/

/-- The bytes of an instruction whose bits are `w`, numbered as the opcode table numbers them: the first byte is bits
7 to 0, the second bits 15 to 8, the third bits 23 to 16 (R59); the bits above `nbits` are zero. Three bytes are the
longest instruction (R80). -/
def tableBytes (nbits w : Nat) : List Byte :=
  let v := w % 2 ^ nbits
  [BitVec.ofNat 8 v, BitVec.ofNat 8 (v / 256), BitVec.ofNat 8 (v / 65536)]

/-- The instruction the decoder reads from a table row's word. -/
def decodeTableWord (nbits w : Nat) : Option Instr :=
  match decode (tableBytes nbits w) with
  | .ok (i, _) => some i
  | .error _ => none

end Sys2Proof
end

