-- ==== Sys2Proof/Machine/State.lean ====
section
/-! DEFINITION. The state of the block (`10_state.md`), the exceptions a step raises, the faults and refusals that end a
run, and the state after reset. -/

namespace Sys2Proof.Machine

/-- The marker met after the last readable byte of the stream (R50). -/
inductive EndMarker where
  | endOfStream
  | ioError
  deriving DecidableEq, Repr

/-- The bytes of the address space: cells of an address and a byte, in the one canonical form `Memory.wf`. -/
abbrev Memory := List Host.Cell

/-- The input stream `in = (B, end)` of R50: `cells` holds byte `B[i]` at address `i`. -/
structure Input where
  cells   : Memory
  endMark : EndMarker
  deriving DecidableEq, Repr

/-- The run status of R23. -/
inductive Status where
  | running
  | done
  | abortIO
  | abortTruncated
  | abortInvariant
  deriving DecidableEq, Repr

/-- The instruction record `cur` of R25: the address of the opcode, the opcode byte, the classifier's result, and the
operand bytes in the order read. -/
structure InstrRecord where
  address : Nat
  opcode  : Byte
  kind    : Kind
  ops     : List Byte
  deriving DecidableEq, Repr

/-- The exceptions of R300 that a step can raise, with the information each carries. `UsageError` is outside the block
(R301), `UnknownOpcode` is an ordinary step (R302), `AddressNotRenderable` is a refusal (R309). -/
inductive Exception where
  /-- R303: a read answered IOError during the instruction at `a`. -/
  | ioError (a : Nat)
  /-- R304: the stream ended before operand `i` of opcode `b` at address `a`. -/
  | truncatedInstruction (a : Nat) (b : Byte) (i : Nat)
  /-- R306: a decoded bit-field fell outside its range. No input raises it. -/
  | internalInvariantViolation
  deriving DecidableEq, Repr

/-- Why `step` gives no next state although the instruction set is not at issue: no step is taken in a terminal status
(R23). Only `step` raises these, and only in the status each names; raising the exception itself is a next state. -/
inductive Fault where
  /-- Raised by `step` in status DONE, the one final good state (R142, R315). Safe: the machine has stopped. -/
  | runDone
  /-- Raised by `step` in status ABORT_IO (R303, R310). Safe: the machine has stopped. -/
  | ioAborted
  /-- Raised by `step` in status ABORT_TRUNCATED (R304, R310). Safe: the machine has stopped. -/
  | truncatedAborted
  /-- Raised by `step` in status ABORT_INVARIANT (R306, R310), which no step enters. Safe. -/
  | invariantAborted
  deriving DecidableEq, Repr

/-- Why the model gives a step no meaning. -/
inductive Refusal where
  /-- Raised by an arm of `exec` whose instruction has no meaning yet; no arm does. Safe. -/
  | notModelled (mnemonic : String)
  /-- Raised by `step` and by a meaning when an opcode stands at an address `a` above 0xFFFF (R120, R309, the spec's
  decision D2). Safe: no claim can be made of such a step. -/
  | addressNotRenderable (a : Nat)
  deriving DecidableEq, Repr

/-- The state of the block (`10_state.md` section 1). -/
structure State where
  /-- The Position, the only program counter: bytes consumed since reset (R20). -/
  pos    : Nat
  /-- The run status (R23). -/
  status : Status
  /-- The instruction record, without a value between steps (R25). -/
  cur    : Option InstrRecord
  /-- The output lines, oldest first (R28). -/
  out    : List String
  /-- The diagnostic lines, oldest first (R29). -/
  diag   : List String
  /-- The stream the run reads (R30, R50). -/
  input  : Input
  deriving DecidableEq, Repr

/-- The state right after reset (R37, R340), with no stream bound yet: the empty one, ended by EndOfStream
(DESIGN CHOICE, log entry 2: the spec leaves the stream to the host). -/
def State.reset : State where
  pos    := 0
  status := .running
  cur    := none
  out    := []
  diag   := []
  input  := ⟨[], .endOfStream⟩

end Sys2Proof.Machine
end

