-- ==== Sys2Proof/Machine/Text.lean ====
section
/-! DEFINITION. The text primitives of R9: hex digits, decimal digit and padding. All hex digits are upper case and all
widths fixed (R115, the spec's decision D7). -/

namespace Sys2Proof.Machine

/-- The upper-case hex digit of a value 0 to 15. -/
def hexDigit (v : Nat) : Char := if v < 10 then Char.ofNat (48 + v) else Char.ofNat (55 + v)

/-- `hex2(v)`: two hex digits, most significant first, for 0 ≤ v ≤ 255 (R9; log entry 14). -/
def hex2 (v : Nat) : String := String.ofList [hexDigit (v / 16 % 16), hexDigit (v % 16)]

/-- `hex4(v)`: four hex digits, most significant first, for 0 ≤ v ≤ 65535 (R9; log entry 14). -/
def hex4 (v : Nat) : String :=
  String.ofList [hexDigit (v / 4096 % 16), hexDigit (v / 256 % 16), hexDigit (v / 16 % 16), hexDigit (v % 16)]

/-- `dec1(v)`: the decimal digit of a value 0 to 9 (R9; log entry 14). -/
def dec1 (v : Nat) : String := String.ofList [Char.ofNat (48 + v)]

/-- `padr(s, n)`: `s` followed by blanks up to `n` characters; never truncated (R9). -/
def padr (s : String) (n : Nat) : String := s ++ String.ofList (List.replicate (n - s.length) ' ')

end Sys2Proof.Machine
end

