-- ==== Sys2Proof/Machine/Operands.lean ====
section
/-! DEFINITION. The operand forms of the thirteen shapes: the name tables (R32 to R34), the value of an operand (R92), the
operand text of each shape (R114) and the line of an instruction (R111). A table lookup out of range has the typed result
`none` (R306, R354); no instruction of the block meets it. -/

namespace Sys2Proof.Machine

/-- `REG`, the one register name table for every register slot (R32). -/
def REG : List String := ["B", "C", "D", "E", "H", "L", "M", "A"]

/-- `RP_ARITH`, the pair names of arithmetic context (R33). -/
def RP_ARITH : List String := ["B", "D", "H", "SP"]

/-- `RP_STACK`, the pair names of stack context (R34): a table of its own, not a patch of the other. -/
def RP_STACK : List String := ["B", "D", "H", "PSW"]

/-- The text of an 8-bit immediate or device id, `#$XX` (R114). -/
def imm8Text (ops : List Byte) : Option String :=
  match ops with
  | [v] => some ("#$" ++ hex2 v.toNat)
  | _ => none

/-- The value `v16 = ops[1] × 256 + ops[0]` of a two-byte operand (R92). -/
def v16 (lo hi : Byte) : Nat := hi.toNat * 256 + lo.toNat

/-- The four hex digits of a two-byte operand, high byte first (R61). -/
def hex16Text (ops : List Byte) : Option String :=
  match ops with
  | [lo, hi] => some (hex4 (v16 lo hi))
  | _ => none

/-- `operand_text(cur)` of R114; the empty text for shape `NONE`. -/
def operandText (c : InstrRecord) : Option String :=
  match c.kind.shape, c.kind.fields with
  | .none, _ => some ""
  | .regD, .reg r => REG[r.toNat]?
  | .regS, .reg r => REG[r.toNat]?
  | .mov, .regs d s => do return (← REG[d.toNat]?) ++ "," ++ (← REG[s.toNat]?)
  | .rpArith, .pair p => RP_ARITH[p.toNat]?
  | .rpBD, .pairBit p => RP_ARITH[p.toNat]?
  | .rpStack, .pair p => RP_STACK[p.toNat]?
  | .rst, .vector n _ => some (dec1 n.toNat)
  | .imm8, _ => imm8Text c.ops
  | .regImm8, .reg r => do return (← REG[r.toNat]?) ++ "," ++ (← imm8Text c.ops)
  | .rpImm16, .pair p => do return (← RP_ARITH[p.toNat]?) ++ ",#$" ++ (← hex16Text c.ops)
  | .addr16, _ => do return "$" ++ (← hex16Text c.ops)
  | .unknown, .raw b => some (hex2 b.toNat)
  | _, _ => none

/-- The line of an address, a mnemonic and an operand text (R111 to R113): without operand text the line ends right
after the mnemonic (`90_conflicts.md` C8). -/
def lineText (address : Nat) (mnemonic text : String) : String :=
  if text = "" then hex4 address ++ " " ++ mnemonic ++ "\n"
  else hex4 address ++ " " ++ padr mnemonic Config.mnemonicWidth ++ " " ++ text ++ "\n"

/-- `format(cur)`, the MnemonicFormatter: a pure function of the record (R110, R111). -/
def format (c : InstrRecord) : Option String :=
  (operandText c).map (lineText c.address c.kind.mnemonic)

/-- The diagnostic line of an Unknown opcode (R119). -/
def diagLine (b : Byte) : String := "Invalid opcode " ++ hex2 b.toNat ++ "\n"

end Sys2Proof.Machine
end

