-- ==== Sys2Proof/Machine/Flags.lean ====
section
/-! DEFINITION. Flag computations: there are none. The block has no flag and no condition code, and the flags line of
every instruction rule says "none" (R31, R147). What the spec has of the conditions is the name table `CC` (R35), from
which the mnemonics of the conditional returns, jumps and calls are spelled; no condition is ever evaluated (R230). -/

namespace Sys2Proof.Machine

/-- `CC`, the condition names, indexed by `b[5:3]` of a conditional opcode (R35). -/
def CC : List String := ["NZ", "Z", "NC", "C", "PO", "PE", "P", "M"]

/-- The mnemonic of a conditional instruction: the letter `R`, `J` or `C` followed by the condition name (R35, R259). -/
def conditionalMnemonic (letter : String) (b : Byte) : Option String :=
  (CC[(bits53 b).toNat]?).map (letter ++ ·)

end Sys2Proof.Machine
end

