-- ==== Sys2Proof/Machine/Memory.lean ====
section
/-! DEFINITION. The address space of the block (`20_memory.md` section 1): the stream's bytes at addresses 0 to L-1, each
listed once, in order. An unlisted address holds no value: a read there meets the end marker (R50, R54; log entry 4). -/

namespace Sys2Proof.Machine

/-- The canonical form: the listed addresses are 0, 1, …, L-1 in this order, so they rise strictly and have no gap (R50).
No cell can equal what an unlisted address reads as, since that is no value. -/
def Memory.wf (m : Memory) : Bool := m.map (·.1) == List.range m.length

/-- The byte at address `a`, if the stream has one there. -/
def Memory.read : Memory → Nat → Option Byte
  | [], _ => none
  | (k, v) :: m, a => if k = a then some v else Memory.read m a

/-- `m` with the byte `v` at address `a`, the addresses still rising. The block itself never writes (R53): only the load
of a stream uses it. -/
def Memory.write : Memory → Nat → Byte → Memory
  | [], a, v => [(a, v)]
  | (k, w) :: m, a, v =>
    if a < k then (a, v) :: (k, w) :: m
    else if a = k then (a, v) :: m
    else (k, w) :: Memory.write m a v

/-- The bytes `vs` written at `a` and the addresses after it. -/
def Memory.writeBytes (m : Memory) (a : Nat) : List Byte → Memory
  | [] => m
  | v :: vs => Memory.writeBytes (m.write a v) (a + 1) vs

/-- The cells of a list of bytes whose first byte stands at address `a`. -/
def cellsFrom (a : Nat) : List Byte → Memory
  | [] => []
  | v :: vs => (a, v) :: cellsFrom (a + 1) vs

/-- The input stream of the bytes `bs`, the first at address 0x0000 (R50, R57), ended by `e`. -/
def streamOf (bs : List Byte) (e : EndMarker) : Input := ⟨cellsFrom 0 bs, e⟩

/-- `L`, the number of bytes of the stream (R50). -/
def Input.length (i : Input) : Nat := i.cells.length

/-- The byte of the stream at address `a`. -/
def Input.read (i : Input) (a : Nat) : Option Byte := i.cells.read a

/-- At most `n` bytes that stand one after another from address `a`. -/
def Input.bytesFrom (i : Input) : Nat → Nat → List Byte
  | _, 0 => []
  | a, n + 1 => match i.read a with
    | some v => v :: i.bytesFrom (a + 1) n
    | none => []

end Sys2Proof.Machine
end

