-- ==== Sys2Proof/Machine/Ops.lean ====
section
/-! DEFINITION. The operations every step is made of: the ByteReader (R52 to R55), `Emit` and `Diag` (R28, R29), the
instruction record's life (R25), the end of a run (R142), raising an exception (R303, R304, R308), reset with a stream
(R340, R342), and the listing of one instruction, which every meaning is one line over. -/

namespace Sys2Proof.Machine

/-! ## ByteReader -/

/-- The answer of `NextByte()`: a byte with the state after the read, or the end marker (R54). -/
inductive ReadResult where
  | byte (v : Byte) (s : State)
  | endOfStream
  | ioError
  deriving DecidableEq, Repr

/-- `position()`: `pos`, without side effect (R55). -/
def position (s : State) : Nat := s.pos

/-- The side effect of one successful read: `pos <- pos + 1` (R54). -/
def State.advance (s : State) : State := { s with pos := s.pos + 1 }

/-- The side effect of `n` successful reads. -/
def State.consume (s : State) : Nat → State
  | 0 => s
  | n + 1 => s.advance.consume n

/-- `NextByte()`, the only read primitive (R52, R54). -/
def nextByte (s : State) : ReadResult :=
  match s.input.read s.pos with
  | some v => .byte v s.advance
  | none => match s.input.endMark with
    | .endOfStream => .endOfStream
    | .ioError => .ioError

/-! ## Output streams and the instruction record -/

/-- `Emit(l)`: append one whole line to `out` (R28, R351). -/
def State.emit (s : State) (l : String) : State := { s with out := s.out ++ [l] }

/-- `Diag(l)`: append one whole line to `diag` (R29). -/
def State.log (s : State) (l : String) : State := { s with diag := s.diag ++ [l] }

/-- `cur <- c` (R141). -/
def State.latch (s : State) (c : InstrRecord) : State := { s with cur := some c }

/-- The end of a step: `cur` has no value between steps (R25). -/
def State.endStep (s : State) : State := { s with cur := none }

/-! ## The end of a run and exceptions -/

/-- End of stream at an instruction boundary: `status <- DONE`, nothing emitted (R142). -/
def State.finish (s : State) : State := { s with status := .done, cur := none }

/-- The terminal status an exception leaves, column "`status` after" of R300. -/
def Exception.status : Exception → Status
  | .ioError _ => .abortIO
  | .truncatedInstruction _ _ _ => .abortTruncated
  | .internalInvariantViolation => .abortInvariant

/-- Raising an exception (R303, R304, R308): the terminal status is the whole effect. `pos` keeps the count of the bytes
consumed, `out` and `diag` keep their lines, no control is transferred and nothing is saved. There is no return from it
(R310): a terminal status is never left. -/
def State.raise (s : State) (e : Exception) : State := { s with status := e.status, cur := none }

/-- The input resource is held while the run goes on, and released in every terminal status (R66). -/
def State.holdsInput (s : State) : Bool := s.status == .running

/-! ## Reset with a stream -/

/-- `open(source)` and reset (R56, R340, R342): the reset state with the stream of the host bound to it. Nothing of an
earlier run enters (R36). -/
def boot (input : Input) : State := { State.reset with input := input }

/-- The load of an instruction's bytes where the next step fetches, for a run that goes on (log entry 3). -/
def State.storeAtPos (s : State) (bs : List Byte) : State :=
  { s with status := .running, input := { s.input with cells := s.input.cells.writeBytes s.pos bs } }

/-! ## The listing of one instruction -/

/-- The `diag` line of a record, if its shape is Unknown (R119, R143). -/
def State.logUnknown (s : State) (c : InstrRecord) : State :=
  if c.kind.shape = .unknown then s.log (diagLine c.opcode) else s

/-- `Emit(format(cur))` and the end of the step (R141). A record that cannot be formatted, or a missing one, is the
classifier bug of R306; no instruction has one. -/
def emitCurrent (s : State) : State :=
  match s.cur.bind format with
  | some l => (s.emit l).endStep
  | none => s.raise .internalInvariantViolation

/-- One instruction of kind `k`, opcode byte `b` and operand bytes `ops` at the position counter (R141, R147): refused
above 0xFFFF (R120, R309), else its diagnostic line if it is Unknown, its `1 + oplen` bytes consumed, its record
latched and its line emitted. -/
def listInstr (k : Kind) (b : Byte) (ops : List Byte) (s : State) : Host.Outcome State Fault Refusal :=
  if position s ≤ Config.maxRenderAddr then
    let c : InstrRecord := ⟨position s, b, k, ops⟩
    .next (emitCurrent (((s.logUnknown c).consume (1 + oplen k.shape)).latch c))
  else .refused (.addressNotRenderable (position s))

/-! One form of `listInstr` per shape of R84. -/

/-- Shape `NONE`. -/
def listNone (m : String) (b : Byte) : State → Host.Outcome State Fault Refusal :=
  listInstr ⟨m, .none, .none⟩ b []

/-- Shape `REG_D`: register `r = b[5:3]`. -/
def listRegD (m : String) (b : Byte) (r : BitVec 3) : State → Host.Outcome State Fault Refusal :=
  listInstr ⟨m, .regD, .reg r⟩ b []

/-- Shape `REG_S`: register `r = b[2:0]`. -/
def listRegS (m : String) (b : Byte) (r : BitVec 3) : State → Host.Outcome State Fault Refusal :=
  listInstr ⟨m, .regS, .reg r⟩ b []

/-- Shape `MOV`: destination `d`, source `s`. -/
def listMov (m : String) (b : Byte) (d s : BitVec 3) : State → Host.Outcome State Fault Refusal :=
  listInstr ⟨m, .mov, .regs d s⟩ b []

/-- Shape `RP_ARITH`. -/
def listRpArith (m : String) (b : Byte) (p : BitVec 2) : State → Host.Outcome State Fault Refusal :=
  listInstr ⟨m, .rpArith, .pair p⟩ b []

/-- Shape `RP_BD`. -/
def listRpBD (m : String) (b : Byte) (p : BitVec 1) : State → Host.Outcome State Fault Refusal :=
  listInstr ⟨m, .rpBD, .pairBit p⟩ b []

/-- Shape `RP_STACK`. -/
def listRpStack (m : String) (b : Byte) (p : BitVec 2) : State → Host.Outcome State Fault Refusal :=
  listInstr ⟨m, .rpStack, .pair p⟩ b []

/-- Shape `RST`: the target is computed and kept in the record only (R258). -/
def listRst (m : String) (b : Byte) (n : BitVec 3) : State → Host.Outcome State Fault Refusal :=
  listInstr ⟨m, .rst, .vector n (rstTarget n)⟩ b []

/-- Shape `IMM8`. -/
def listImm8 (m : String) (b v : Byte) : State → Host.Outcome State Fault Refusal :=
  listInstr ⟨m, .imm8, .none⟩ b [v]

/-- Shape `REG_IMM8`. -/
def listRegImm8 (m : String) (b : Byte) (r : BitVec 3) (v : Byte) : State → Host.Outcome State Fault Refusal :=
  listInstr ⟨m, .regImm8, .reg r⟩ b [v]

/-- Shape `RP_IMM16`. -/
def listRpImm16 (m : String) (b : Byte) (p : BitVec 2) (v : Word) : State → Host.Outcome State Fault Refusal :=
  listInstr ⟨m, .rpImm16, .pair p⟩ b [lowByte v, highByte v]

/-- Shape `ADDR16`. -/
def listAddr16 (m : String) (b : Byte) (addr : Word) : State → Host.Outcome State Fault Refusal :=
  listInstr ⟨m, .addr16, .none⟩ b [lowByte addr, highByte addr]

/-- Shape `UNKNOWN`: the raw opcode byte is the operand (R271). -/
def listUnknown (m : String) (raw : Byte) : State → Host.Outcome State Fault Refusal :=
  listInstr ⟨m, .unknown, .raw raw⟩ raw []

end Sys2Proof.Machine
end

