-- ==== Sys2Proof/Machine/ControlTransfer.lean ====
section
/-! DEFINITION. The meanings of the control-transfer instructions, printed and never followed (R230) (`46_control_transfer.md`, R230 to R260).
A target is printed and never moves `pos`; the block has no flag to evaluate (R230, R259). -/

namespace Sys2Proof.Machine

/-- JMP, R231. -/
def execJmp (addr : Word) (st : State) : Host.Outcome State Fault Refusal :=
  listAddr16 "JMP" 0xC3 addr st

/-- JNZ, R232. -/
def execJnz (addr : Word) (st : State) : Host.Outcome State Fault Refusal :=
  listAddr16 "JNZ" 0xC2 addr st

/-- JZ, R233. -/
def execJz (addr : Word) (st : State) : Host.Outcome State Fault Refusal :=
  listAddr16 "JZ" 0xCA addr st

/-- JNC, R234. -/
def execJnc (addr : Word) (st : State) : Host.Outcome State Fault Refusal :=
  listAddr16 "JNC" 0xD2 addr st

/-- JC, R235. -/
def execJc (addr : Word) (st : State) : Host.Outcome State Fault Refusal :=
  listAddr16 "JC" 0xDA addr st

/-- JPO, R236. -/
def execJpo (addr : Word) (st : State) : Host.Outcome State Fault Refusal :=
  listAddr16 "JPO" 0xE2 addr st

/-- JPE, R237. -/
def execJpe (addr : Word) (st : State) : Host.Outcome State Fault Refusal :=
  listAddr16 "JPE" 0xEA addr st

/-- JP, R238. -/
def execJp (addr : Word) (st : State) : Host.Outcome State Fault Refusal :=
  listAddr16 "JP" 0xF2 addr st

/-- JM, R239. -/
def execJm (addr : Word) (st : State) : Host.Outcome State Fault Refusal :=
  listAddr16 "JM" 0xFA addr st

/-- CALL, R240. -/
def execCall (addr : Word) (st : State) : Host.Outcome State Fault Refusal :=
  listAddr16 "CALL" 0xCD addr st

/-- CNZ, R241. -/
def execCnz (addr : Word) (st : State) : Host.Outcome State Fault Refusal :=
  listAddr16 "CNZ" 0xC4 addr st

/-- CZ, R242. -/
def execCz (addr : Word) (st : State) : Host.Outcome State Fault Refusal :=
  listAddr16 "CZ" 0xCC addr st

/-- CNC, R243. -/
def execCnc (addr : Word) (st : State) : Host.Outcome State Fault Refusal :=
  listAddr16 "CNC" 0xD4 addr st

/-- CC, R244. -/
def execCc (addr : Word) (st : State) : Host.Outcome State Fault Refusal :=
  listAddr16 "CC" 0xDC addr st

/-- CPO, R245. -/
def execCpo (addr : Word) (st : State) : Host.Outcome State Fault Refusal :=
  listAddr16 "CPO" 0xE4 addr st

/-- CPE, R246. -/
def execCpe (addr : Word) (st : State) : Host.Outcome State Fault Refusal :=
  listAddr16 "CPE" 0xEC addr st

/-- CP, R247. -/
def execCp (addr : Word) (st : State) : Host.Outcome State Fault Refusal :=
  listAddr16 "CP" 0xF4 addr st

/-- CM, R248. -/
def execCm (addr : Word) (st : State) : Host.Outcome State Fault Refusal :=
  listAddr16 "CM" 0xFC addr st

/-- RET, R249. -/
def execRet (st : State) : Host.Outcome State Fault Refusal :=
  listNone "RET" 0xC9 st

/-- RNZ, R250. -/
def execRnz (st : State) : Host.Outcome State Fault Refusal :=
  listNone "RNZ" 0xC0 st

/-- RZ, R251. -/
def execRz (st : State) : Host.Outcome State Fault Refusal :=
  listNone "RZ" 0xC8 st

/-- RNC, R252. -/
def execRnc (st : State) : Host.Outcome State Fault Refusal :=
  listNone "RNC" 0xD0 st

/-- RC, R253. -/
def execRc (st : State) : Host.Outcome State Fault Refusal :=
  listNone "RC" 0xD8 st

/-- RPO, R254. -/
def execRpo (st : State) : Host.Outcome State Fault Refusal :=
  listNone "RPO" 0xE0 st

/-- RPE, R255. -/
def execRpe (st : State) : Host.Outcome State Fault Refusal :=
  listNone "RPE" 0xE8 st

/-- RP, R256. -/
def execRp (st : State) : Host.Outcome State Fault Refusal :=
  listNone "RP" 0xF0 st

/-- RM, R257. -/
def execRm (st : State) : Host.Outcome State Fault Refusal :=
  listNone "RM" 0xF8 st

/-- RST, R258. -/
def execRst (n : BitVec 3) (st : State) : Host.Outcome State Fault Refusal :=
  listRst "RST" (0b11#2 ++ n ++ 0b111#3) n st

end Sys2Proof.Machine
end

