-- ==== Sys2Proof/Machine/DirectAddress.lean ====
section
/-! DEFINITION. The meanings of the direct-address load and store instructions (`45_direct_address.md`, R225 to R229).
The address is printed `$XXXX` and never dereferenced (R225). -/

namespace Sys2Proof.Machine

/-- LDA, R226. -/
def execLda (addr : Word) (st : State) : Host.Outcome State Fault Refusal :=
  listAddr16 "LDA" 0x3A addr st

/-- STA, R227. -/
def execSta (addr : Word) (st : State) : Host.Outcome State Fault Refusal :=
  listAddr16 "STA" 0x32 addr st

/-- LHLD, R228. -/
def execLhld (addr : Word) (st : State) : Host.Outcome State Fault Refusal :=
  listAddr16 "LHLD" 0x2A addr st

/-- SHLD, R229. -/
def execShld (addr : Word) (st : State) : Host.Outcome State Fault Refusal :=
  listAddr16 "SHLD" 0x22 addr st

end Sys2Proof.Machine
end

