-- ==== Sys2Proof/Machine/Immediate.lean ====
section
/-! DEFINITION. The meanings of the immediate-operand and input/output instructions (`44_immediate.md`, R210 to R220).
The operand byte is printed `#$XX`; no device is accessed (R210). -/

namespace Sys2Proof.Machine

/-- ADI, R211. -/
def execAdi (v : Byte) (st : State) : Host.Outcome State Fault Refusal :=
  listImm8 "ADI" 0xC6 v st

/-- ACI, R212. -/
def execAci (v : Byte) (st : State) : Host.Outcome State Fault Refusal :=
  listImm8 "ACI" 0xCE v st

/-- SUI, R213. -/
def execSui (v : Byte) (st : State) : Host.Outcome State Fault Refusal :=
  listImm8 "SUI" 0xD6 v st

/-- SBI, R214. -/
def execSbi (v : Byte) (st : State) : Host.Outcome State Fault Refusal :=
  listImm8 "SBI" 0xDE v st

/-- ANI, R215. -/
def execAni (v : Byte) (st : State) : Host.Outcome State Fault Refusal :=
  listImm8 "ANI" 0xE6 v st

/-- XRI, R216. -/
def execXri (v : Byte) (st : State) : Host.Outcome State Fault Refusal :=
  listImm8 "XRI" 0xEE v st

/-- ORI, R217. -/
def execOri (v : Byte) (st : State) : Host.Outcome State Fault Refusal :=
  listImm8 "ORI" 0xF6 v st

/-- CPI, R218. -/
def execCpi (v : Byte) (st : State) : Host.Outcome State Fault Refusal :=
  listImm8 "CPI" 0xFE v st

/-- IN, R219. -/
def execIn (v : Byte) (st : State) : Host.Outcome State Fault Refusal :=
  listImm8 "IN" 0xDB v st

/-- OUT, R220. -/
def execOut (v : Byte) (st : State) : Host.Outcome State Fault Refusal :=
  listImm8 "OUT" 0xD3 v st

end Sys2Proof.Machine
end

