-- ==== Sys2Proof/Machine/NoOperand.lean ====
section
/-! DEFINITION. The meanings of the instructions without operand field and without operand byte (`41_no_operand.md`, R160 to R176).
None of them has any effect on the block beyond its line: HLT does not halt it, EI and DI mask nothing (R176). -/

namespace Sys2Proof.Machine

/-- NOP, R160. -/
def execNop (st : State) : Host.Outcome State Fault Refusal :=
  listNone "NOP" 0x00 st

/-- HLT, R161. -/
def execHlt (st : State) : Host.Outcome State Fault Refusal :=
  listNone "HLT" 0x76 st

/-- RLC, R162. -/
def execRlc (st : State) : Host.Outcome State Fault Refusal :=
  listNone "RLC" 0x07 st

/-- RRC, R163. -/
def execRrc (st : State) : Host.Outcome State Fault Refusal :=
  listNone "RRC" 0x0F st

/-- RAL, R164. -/
def execRal (st : State) : Host.Outcome State Fault Refusal :=
  listNone "RAL" 0x17 st

/-- RAR, R165. -/
def execRar (st : State) : Host.Outcome State Fault Refusal :=
  listNone "RAR" 0x1F st

/-- DAA, R166. -/
def execDaa (st : State) : Host.Outcome State Fault Refusal :=
  listNone "DAA" 0x27 st

/-- CMA, R167. -/
def execCma (st : State) : Host.Outcome State Fault Refusal :=
  listNone "CMA" 0x2F st

/-- STC, R168. -/
def execStc (st : State) : Host.Outcome State Fault Refusal :=
  listNone "STC" 0x37 st

/-- CMC, R169. -/
def execCmc (st : State) : Host.Outcome State Fault Refusal :=
  listNone "CMC" 0x3F st

/-- XCHG, R170. -/
def execXchg (st : State) : Host.Outcome State Fault Refusal :=
  listNone "XCHG" 0xEB st

/-- XTHL, R171. -/
def execXthl (st : State) : Host.Outcome State Fault Refusal :=
  listNone "XTHL" 0xE3 st

/-- PCHL, R172. -/
def execPchl (st : State) : Host.Outcome State Fault Refusal :=
  listNone "PCHL" 0xE9 st

/-- SPHL, R173. -/
def execSphl (st : State) : Host.Outcome State Fault Refusal :=
  listNone "SPHL" 0xF9 st

/-- DI, R174. -/
def execDi (st : State) : Host.Outcome State Fault Refusal :=
  listNone "DI" 0xF3 st

/-- EI, R175. -/
def execEi (st : State) : Host.Outcome State Fault Refusal :=
  listNone "EI" 0xFB st

end Sys2Proof.Machine
end

