-- ==== Sys2Proof/Machine/Register.lean ====
section
/-! DEFINITION. The meanings of the single-register, move and register-arithmetic instructions (`43_register.md`, R190 to R202).
A register is a name to print; `M` is printed like any other (R190). -/

namespace Sys2Proof.Machine

/-- INR, R191. -/
def execInr (r : BitVec 3) (st : State) : Host.Outcome State Fault Refusal :=
  listRegD "INR" (0b00#2 ++ r ++ 0b100#3) r st

/-- DCR, R192. -/
def execDcr (r : BitVec 3) (st : State) : Host.Outcome State Fault Refusal :=
  listRegD "DCR" (0b00#2 ++ r ++ 0b101#3) r st

/-- MVI, R193. -/
def execMvi (r : BitVec 3) (v : Byte) (st : State) : Host.Outcome State Fault Refusal :=
  listRegImm8 "MVI" (0b00#2 ++ r ++ 0b110#3) r v st

/-- MOV, R194. -/
def execMov (d s : BitVec 3) (st : State) : Host.Outcome State Fault Refusal :=
  listMov "MOV" (0b01#2 ++ d ++ s) d s st

/-- ADD, R195. -/
def execAdd (r : BitVec 3) (st : State) : Host.Outcome State Fault Refusal :=
  listRegS "ADD" (0b10000#5 ++ r) r st

/-- ADC, R196. -/
def execAdc (r : BitVec 3) (st : State) : Host.Outcome State Fault Refusal :=
  listRegS "ADC" (0b10001#5 ++ r) r st

/-- SUB, R197. -/
def execSub (r : BitVec 3) (st : State) : Host.Outcome State Fault Refusal :=
  listRegS "SUB" (0b10010#5 ++ r) r st

/-- SBB, R198. -/
def execSbb (r : BitVec 3) (st : State) : Host.Outcome State Fault Refusal :=
  listRegS "SBB" (0b10011#5 ++ r) r st

/-- ANA, R199. -/
def execAna (r : BitVec 3) (st : State) : Host.Outcome State Fault Refusal :=
  listRegS "ANA" (0b10100#5 ++ r) r st

/-- XRA, R200. -/
def execXra (r : BitVec 3) (st : State) : Host.Outcome State Fault Refusal :=
  listRegS "XRA" (0b10101#5 ++ r) r st

/-- ORA, R201. -/
def execOra (r : BitVec 3) (st : State) : Host.Outcome State Fault Refusal :=
  listRegS "ORA" (0b10110#5 ++ r) r st

/-- CMP, R202. -/
def execCmp (r : BitVec 3) (st : State) : Host.Outcome State Fault Refusal :=
  listRegS "CMP" (0b10111#5 ++ r) r st

end Sys2Proof.Machine
end

