-- ==== Sys2Proof/Machine/RegisterPair.lean ====
section
/-! DEFINITION. The meanings of the register-pair instructions (`42_register_pair.md`, R180 to R188).
The pair is a name to print, from the table the family selects (R94, R180). -/

namespace Sys2Proof.Machine

/-- LXI, R181. -/
def execLxi (p : BitVec 2) (v : Word) (st : State) : Host.Outcome State Fault Refusal :=
  listRpImm16 "LXI" (0b00#2 ++ p ++ 0b0001#4) p v st

/-- STAX, R182. -/
def execStax (p : BitVec 1) (st : State) : Host.Outcome State Fault Refusal :=
  listRpBD "STAX" (0b000#3 ++ p ++ 0b0010#4) p st

/-- LDAX, R183. -/
def execLdax (p : BitVec 1) (st : State) : Host.Outcome State Fault Refusal :=
  listRpBD "LDAX" (0b000#3 ++ p ++ 0b1010#4) p st

/-- INX, R184. -/
def execInx (p : BitVec 2) (st : State) : Host.Outcome State Fault Refusal :=
  listRpArith "INX" (0b00#2 ++ p ++ 0b0011#4) p st

/-- DCX, R185. -/
def execDcx (p : BitVec 2) (st : State) : Host.Outcome State Fault Refusal :=
  listRpArith "DCX" (0b00#2 ++ p ++ 0b1011#4) p st

/-- DAD, R186. -/
def execDad (p : BitVec 2) (st : State) : Host.Outcome State Fault Refusal :=
  listRpArith "DAD" (0b00#2 ++ p ++ 0b1001#4) p st

/-- POP, R187. -/
def execPop (p : BitVec 2) (st : State) : Host.Outcome State Fault Refusal :=
  listRpStack "POP" (0b11#2 ++ p ++ 0b0001#4) p st

/-- PUSH, R188. -/
def execPush (p : BitVec 2) (st : State) : Host.Outcome State Fault Refusal :=
  listRpStack "PUSH" (0b11#2 ++ p ++ 0b0101#4) p st

end Sys2Proof.Machine
end

