-- ==== Sys2Proof/Machine/Unknown.lean ====
section
/-! DEFINITION. The meanings of the Unknown instruction kind (`47_unknown.md`, R270 to R273).
One line on `out`, one on `diag`, and the run goes on at the next byte (R271, R273). -/

namespace Sys2Proof.Machine

/-- UNKNOWN, R271. -/
def execUnknown (raw : Byte) (st : State) : Host.Outcome State Fault Refusal :=
  listUnknown "UNKNOWN" raw st

end Sys2Proof.Machine
end

