-- ==== Sys2Proof/Machine/Fetch.lean ====
section
/-! DEFINITION. The first half of `Step()` (R141): the opcode read, the address check, the classification and the operand
reads, in this order (R307). -/

namespace Sys2Proof.Machine

/-- What the first half of a step comes to. -/
inductive Fetched where
  /-- End of stream where an opcode was expected (R142). -/
  | endOfRun
  /-- An exception, with the state whose `pos` counts the bytes consumed before it (R303, R304). -/
  | raised (e : Exception) (s : State)
  /-- The address of the instruction cannot be rendered (R309). -/
  | refused (r : Refusal)
  /-- The instruction at `pos`, all its bytes read. -/
  | instr (i : Instr)
  deriving DecidableEq, Repr

/-- The operand reads of the instruction with opcode `b` at address `a`: `n` more bytes, operand `i` the next (R91). The
bytes in the order read with the state after them, or the exception met and the state it is met in. -/
def readOperands (a : Nat) (b : Byte) : Nat → Nat → State → Except (Exception × State) (List Byte × State)
  | 0, _, s => .ok ([], s)
  | n + 1, i, s => match nextByte s with
    | .endOfStream => .error (.truncatedInstruction a b i, s)
    | .ioError => .error (.ioError a, s)
    | .byte v s' => match readOperands a b n (i + 1) s' with
      | .error e => .error e
      | .ok (vs, s'') => .ok (v :: vs, s'')

/-- From a state in status RUNNING: the outcome of reading one instruction at `pos`. A decoder that refused bytes it
was given whole would be the classifier bug of R306; it never does. -/
def fetch (s : State) : Fetched :=
  let a := position s
  match nextByte s with
  | .endOfStream => .endOfRun
  | .ioError => .raised (.ioError a) s
  | .byte b s' =>
    if a ≤ Config.maxRenderAddr then
      match readOperands a b (oplen (classify b).shape) 0 s' with
      | .error (e, s'') => .raised e s''
      | .ok (ops, s'') => match decode (b :: ops) with
        | .ok (i, _) => .instr i
        | .error _ => .raised .internalInvariantViolation s''
    else .refused (.addressNotRenderable a)

end Sys2Proof.Machine
end

