-- ==== Sys2Proof/Machine/Driver.lean ====
section
/-! DEFINITION. `Step()`, one iteration of the Driver loop (R140, R141), and the fault of a step asked for in a terminal
status (R23). -/

namespace Sys2Proof.Machine

/-- The fault of a step asked for in a terminal status; none in status RUNNING (log entries 5, 6). -/
def stopFault : Status → Option Fault
  | .running => none
  | .done => some .runDone
  | .abortIO => some .ioAborted
  | .abortTruncated => some .truncatedAborted
  | .abortInvariant => some .invariantAborted

/-- One iteration of the Driver loop in status RUNNING (R141). -/
def runStep (s : State) : Host.Outcome State Fault Refusal :=
  match fetch s with
  | .endOfRun => .next s.finish
  | .raised e s' => .next (s'.raise e)
  | .refused r => .refused r
  | .instr i => exec i s

/-- `Step()` with its precondition `status = RUNNING` (R141); a terminal status is never left (R23). -/
def driverStep (s : State) : Host.Outcome State Fault Refusal :=
  match stopFault s.status with
  | some f => .fault f
  | none => runStep s

end Sys2Proof.Machine
end

