-- ==== Sys2Proof/Machine/Step.lean ====
section
/-! DEFINITION. `step`, and the load of one instruction where the next step fetches. -/

namespace Sys2Proof.Machine

/-- One step of the machine: `Step()` of R141. -/
def step (s : State) : Host.Outcome State Fault Refusal := driverStep s

/-- `s` with the instruction whose bits are `w` stored at the position counter, and the run going on, so that the next
step fetches and runs it (log entry 3). -/
def State.withFetchWord (s : State) (nbits w : Nat) : State := s.storeAtPos (tableBytes nbits w)

end Sys2Proof.Machine
end

