-- ==== Sys2Proof/Safety.lean ====
section
/-! DEFINITION. What counts as a good state and a safe run, in the terms the claims use: the invariant of a state, the
listing a state must hold, and the reference listing of a whole stream. -/

namespace Sys2Proof.Machine

/-- `DONE`, the only final good state (R315). -/
def State.FinalGood (s : State) : Prop := s.status = .done

/-- A fault state: entered by a step, never left, never final-good (R315). -/
def State.Aborted (s : State) : Prop :=
  s.status = .abortIO ∨ s.status = .abortTruncated ∨ s.status = .abortInvariant

/-- What every state between steps satisfies: the stream is in canonical form (R50), `pos ≤ L` (R145 d), `cur` has no
value (R25), a run that is over stopped at the end of the stream, with the marker its status says (R142, R303, R304),
and the invariant violation did not happen (R306). -/
structure State.Inv (s : State) : Prop where
  stream    : Memory.wf s.input.cells = true
  inRange   : s.pos ≤ s.input.length
  noRecord  : s.cur = none
  atEnd     : s.status ≠ .running → s.pos = s.input.length
  doneMark  : s.status = .done → s.input.endMark = .endOfStream
  truncMark : s.status = .abortTruncated → s.input.endMark = .endOfStream
  ioMark    : s.status = .abortIO → s.input.endMark = .ioError
  noBug     : s.status ≠ .abortInvariant

/-- `c` is the record of an instruction of the stream: its opcode stands at its address, its kind is the classifier's,
its operand bytes are the bytes after the opcode, as many as its shape says (R25, R26). -/
structure InstrRecord.OfStream (c : InstrRecord) (inp : Input) : Prop where
  opcode : inp.read c.address = some c.opcode
  kind   : c.kind = classify c.opcode
  ops    : c.ops = inp.bytesFrom (c.address + 1) (oplen c.kind.shape)
  count  : c.ops.length = oplen c.kind.shape

/-- The records stand one right after another, from address `a` to the address `e` after the last: each address is the
sum of the lengths before it (R21, R145 a). -/
def Chain : Nat → List InstrRecord → Nat → Prop
  | a, [], e => a = e
  | a, c :: cs, e => c.address = a ∧ Chain (a + (1 + oplen c.kind.shape)) cs e

/-- The record is of an Unknown opcode. -/
def InstrRecord.isUnknown (c : InstrRecord) : Bool := c.kind.shape == .unknown

/-- `out` and `diag` are exactly the lines of the instructions of the stream from address 0 to `e`, in order, one `out`
line each and one `diag` line per Unknown one, and `pos` is `e`, or at most two bytes further when a run was aborted
inside an instruction (R28, R145, R303, R304, R308). -/
def State.Listing (s : State) : Prop :=
  ∃ (cs : List InstrRecord) (e : Nat),
    Chain 0 cs e ∧
    (∀ c ∈ cs, c.OfStream s.input) ∧
    s.out.map some = cs.map format ∧
    s.diag = (cs.filter (·.isUnknown)).map (fun c => diagLine c.opcode) ∧
    (s.status = .running ∨ s.status = .done → s.pos = e) ∧
    e ≤ s.pos ∧ s.pos ≤ e + 2

/-! ## The reference listing of a stream -/

/-- What the host gets back at the end of a run (R343). -/
structure Report where
  out    : List String
  diag   : List String
  pos    : Nat
  status : Status
  deriving DecidableEq, Repr

/-- The status of a run whose stream ends where an opcode is expected (R142, R303). -/
def EndMarker.atBoundary : EndMarker → Status
  | .endOfStream => .done
  | .ioError => .abortIO

/-- The status of a run whose stream ends inside an instruction (R303, R304). -/
def EndMarker.insideInstr : EndMarker → Status
  | .endOfStream => .abortTruncated
  | .ioError => .abortIO

/-- The listing of the bytes of a stream, the first one at address `a`, written on the list of bytes itself: no position
counter, no reads, no state. `fuel` bounds the number of instructions. -/
def disassemble (e : EndMarker) : Nat → Nat → List Byte → Report
  | 0, a, _ => ⟨[], [], a, .running⟩
  | _ + 1, a, [] => ⟨[], [], a, e.atBoundary⟩
  | fuel + 1, a, b :: rest =>
    let k := classify b
    let n := oplen k.shape
    if rest.length < n then ⟨[], [], a + 1 + rest.length, e.insideInstr⟩
    else
      let r := disassemble e fuel (a + 1 + n) (rest.drop n)
      { r with
        out := (format ⟨a, b, k, rest.take n⟩).toList ++ r.out
        diag := (if k.shape = .unknown then [diagLine b] else []) ++ r.diag }

end Sys2Proof.Machine
end

