-- ==== Sys2Proof/Certificates/Slice0/Obligations.lean ====
section
/-! DEFINITION. The statements for the provers. Each docstring names the rules of the spec it formalises, and says so where
it rests on a decision of the spec or of the model. The definitions before them are the terms the statements use; they are
written from the spec and not from the model's own tables. -/

open Sys2Proof Sys2Proof.Machine

namespace Sys2Proof.Spec

/-- The name of a 3-bit register field, in the order of R32. -/
def regName (r : BitVec 3) : String :=
  match r.toNat with
  | 0 => "B" | 1 => "C" | 2 => "D" | 3 => "E" | 4 => "H" | 5 => "L" | 6 => "M" | _ => "A"

/-- The name of a pair field in arithmetic context, R33. -/
def pairArith (p : BitVec 2) : String :=
  match p.toNat with
  | 0 => "B" | 1 => "D" | 2 => "H" | _ => "SP"

/-- The name of a pair field in stack context, R34. -/
def pairStack (p : BitVec 2) : String :=
  match p.toNat with
  | 0 => "B" | 1 => "D" | 2 => "H" | _ => "PSW"

/-- The name of the pair bit of STAX and LDAX, R180. -/
def pairBit (p : BitVec 1) : String := if p.toNat = 0 then "B" else "D"

/-- The state `s` becomes when an instruction of `n` bytes has been decoded and the text after its address is `text`:
`n` bytes consumed, one line more on `out`, no record, and nothing else changed. -/
def listed (s : State) (n : Nat) (text : String) : State :=
  { s with pos := s.pos + n, cur := none, out := s.out ++ [hex4 s.pos ++ " " ++ text ++ "\n"] }

/-- `exec i` completes at `s`, consuming `n` bytes and printing `text`. -/
def Prints (s : State) (i : Instr) (n : Nat) (text : String) : Prop := exec i s = .next (listed s n text)

/-- The address of the next instruction can be rendered (R120): the one condition under which an instruction runs. -/
def Renderable (s : State) : Prop := s.pos ≤ 0xFFFF

/-- The upper-case hex digits. -/
def hexAlphabet : List Char := "0123456789ABCDEF".toList

/-- The value of an upper-case hex digit. -/
def hexDigitValue (c : Char) : Nat := hexAlphabet.idxOf c

/-- The number a string of hex digits denotes, most significant digit first. -/
def readHex (t : String) : Nat := t.toList.foldl (fun n c => n * 16 + hexDigitValue c) 0

/-- `n` upper-case hex digits. -/
def HexText (n : Nat) (t : String) : Prop := t.toList.length = n ∧ ∀ c ∈ t.toList, c ∈ hexAlphabet

/-- `pad7(m)` of R118. -/
def pad7 (m : String) : String := m ++ String.ofList (List.replicate (7 - m.length) ' ')

/-- The mnemonics of shape NONE, from R87. -/
def mnem0 : List String :=
  ["NOP", "HLT", "RLC", "RRC", "RAL", "RAR", "DAA", "CMA", "STC", "CMC", "XCHG", "XTHL", "PCHL", "SPHL", "DI", "EI",
   "RET", "RNZ", "RZ", "RNC", "RC", "RPO", "RPE", "RP", "RM"]

/-- `mnemR` of R118. -/
def mnemR : List String := ["INR", "DCR", "ADD", "ADC", "SUB", "SBB", "ANA", "XRA", "ORA", "CMP"]

/-- `mnemI` of R118. -/
def mnemI : List String := ["ADI", "ACI", "SUI", "SBI", "ANI", "XRI", "ORI", "CPI", "IN", "OUT"]

/-- `mnemA` of R118. -/
def mnemA : List String :=
  ["LDA", "STA", "LHLD", "SHLD", "JMP", "JNZ", "JZ", "JNC", "JC", "JPO", "JPE", "JP", "JM",
   "CALL", "CNZ", "CZ", "CNC", "CC", "CPO", "CPE", "CP", "CM"]

/-- `rp`, split by mnemonic as R180 does: which pair names each `mnemP` can print. -/
def pairForms : List (String × List String) :=
  [("INX", ["B", "D", "H", "SP"]), ("DCX", ["B", "D", "H", "SP"]), ("DAD", ["B", "D", "H", "SP"]),
   ("STAX", ["B", "D"]), ("LDAX", ["B", "D"]), ("POP", ["B", "D", "H", "PSW"]), ("PUSH", ["B", "D", "H", "PSW"])]

/-- `reg` of R118. -/
def regs : List String := ["B", "C", "D", "E", "H", "L", "M", "A"]

/-- `body` of the grammar of R118, one constructor per production. -/
inductive Body : String → Prop
  | none (m : String) : m ∈ mnem0 → Body m
  | reg (m r : String) : m ∈ mnemR → r ∈ regs → Body (pad7 m ++ " " ++ r)
  | mov (d s : String) : d ∈ regs → s ∈ regs → Body ("MOV    " ++ " " ++ d ++ "," ++ s)
  | pair (m p : String) (ps : List String) : (m, ps) ∈ pairForms → p ∈ ps → Body (pad7 m ++ " " ++ p)
  | lxi (p v : String) : p ∈ ["B", "D", "H", "SP"] → HexText 4 v → Body ("LXI    " ++ " " ++ p ++ ",#$" ++ v)
  | mvi (r v : String) : r ∈ regs → HexText 2 v → Body ("MVI    " ++ " " ++ r ++ ",#$" ++ v)
  | imm (m v : String) : m ∈ mnemI → HexText 2 v → Body (pad7 m ++ " " ++ "#$" ++ v)
  | addr (m v : String) : m ∈ mnemA → HexText 4 v → Body (pad7 m ++ " " ++ "$" ++ v)
  | rst (d : String) : d ∈ ["0", "1", "2", "3", "4", "5", "6", "7"] → Body ("RST    " ++ " " ++ d)
  | unknown (v : String) : HexText 2 v → Body ("UNKNOWN" ++ " " ++ v)

/-- `line` of the grammar of R118. -/
def Line (l : String) : Prop := ∃ a b, l = a ++ " " ++ b ++ "\n" ∧ HexText 4 a ∧ Body b

/-- The characters of a line of `out`: R10. -/
def charset : List Char := " #$,0123456789ABCDEFGHIJKLMNOPQRSTUVWXYZ\n".toList

/-- Every instruction of the bytes, the first at address `a`, starts at or below 0xFFFF: the weaker premise of R309. `fuel`
bounds the number of instructions. -/
def StartsRenderable : Nat → Nat → List Byte → Prop
  | 0, _, _ => True
  | _ + 1, _, [] => True
  | fuel + 1, a, b :: rest =>
    a ≤ 0xFFFF ∧ StartsRenderable fuel (a + 1 + oplen (classify b).shape) (rest.drop (oplen (classify b).shape))

end Sys2Proof.Spec

open Sys2Proof.Spec

/-! ## Encoding and classification -/

/-- Decoding the bytes of a well-formed instruction, whatever bytes follow, gives the instruction back and leaves the
bytes that follow: no bit of an encoding is dropped (R80, R81, R82, R87). -/
def Obligations.DecodeOfEncodeIsTheInstruction : Prop :=
  ∀ (i : Instr) (rest : List Byte), wellFormed i = true → decode (encode i ++ rest) = .ok (i, rest)

/-- The other direction: what the decoder reads is well-formed, and the bytes it read are that instruction's encoding, so
each byte string has one meaning (R83, R96, R98). -/
def Obligations.DecodedBytesAreTheEncoding : Prop :=
  ∀ (bs rest : List Byte) (i : Instr), decode bs = .ok (i, rest) → wellFormed i = true ∧ encode i ++ rest = bs

/-- The decoder rejects exactly the byte lists that end inside an instruction: the empty one, and an opcode with fewer
operand bytes than its shape has; with all of them it answers an instruction (R83, R90, R98). -/
def Obligations.DecodeRejectsOnlyMissingBytes : Prop :=
  decode [] = .error .noOpcode ∧
  ∀ (b : Byte) (rest : List Byte),
    (rest.length < oplen (classify b).shape → decode (b :: rest) = .error (.missingOperand b rest.length)) ∧
    (oplen (classify b).shape ≤ rest.length →
      ∃ i, decode (b :: rest) = .ok (i, rest.drop (oplen (classify b).shape)))

/-- Sanity: words written out from the spec's encodings, one or more per family, decode to the instruction they stand for
(R87; the examples of R97, R181, R187, R193, R194, R226, R258, R271). -/
def Obligations.WordsOfEachFamilyDecode : Prop :=
  decode [0b01110110] = .ok (.hlt, []) ∧
  decode [0b00100001, 0x34, 0x12] = .ok (.lxi 2 0x1234, []) ∧
  decode [0b11110001] = .ok (.pop 3, []) ∧
  decode [0b00011010] = .ok (.ldax 1, []) ∧
  decode [0b00111110, 0x05] = .ok (.mvi 7 0x05, []) ∧
  decode [0b01001010] = .ok (.mov 1 2, []) ∧
  decode [0b10111110] = .ok (.cmp 6, []) ∧
  decode [0b11011011, 0x01] = .ok (.inp 0x01, []) ∧
  decode [0b00111010, 0x00, 0x20] = .ok (.lda 0x2000, []) ∧
  decode [0b11000010, 0x06, 0x00] = .ok (.jnz 0x0006, []) ∧
  decode [0b11111111] = .ok (.rst 7, []) ∧
  decode [0b11001011] = .ok (.unknown 0xCB, [])

/-- How many rules of R87 select a byte: none for the twelve Unknown bytes, two for 0x76 (HLT and MOV), one for every
other byte (R86, R89, R96; the check X2). The values of group 1 are the spec's decision D4. -/
def Obligations.RuleOverlapIsOnly76 : Prop :=
  ∀ b : Byte, (rules.filter (·.selects b)).length =
    if b ∈ ([0x08, 0x10, 0x18, 0x20, 0x28, 0x30, 0x38, 0xCB, 0xD9, 0xDD, 0xED, 0xFD] : List Byte) then 0
    else if b = 0x76 then 2 else 1

/-- The order of the rules matters for 0x76 only: any reordering of the rule set classifies every other byte alike, and any
order that tries the exact rules before the masked families classifies every byte alike (R85, R86, U7). -/
def Obligations.RuleOrderMattersOnlyFor76 : Prop :=
  (∀ (rs : List Rule) (b : Byte), rs.Perm rules → b ≠ 0x76 → classifyWith rs b = classify b) ∧
  (∀ (es fs : List Rule) (b : Byte), es.Perm exactRules → fs.Perm familyRules →
    classifyWith (es ++ fs) b = classify b)

/-- The Unknown bytes are exactly the twelve of R96 (the spec's decision D3), and only they have the shape UNKNOWN. -/
def Obligations.UnknownBytesAreTheTwelve : Prop :=
  ∀ b : Byte, (classify b = ⟨"UNKNOWN", .unknown, .raw b⟩ ∧ (classify b).shape = .unknown) ↔
    b ∈ ([0x08, 0x10, 0x18, 0x20, 0x28, 0x30, 0x38, 0xCB, 0xD9, 0xDD, 0xED, 0xFD] : List Byte)

/-- Over the 256 opcode bytes, 212 have operand length 0, 18 have 1 and 26 have 2 (R90, check X1). -/
def Obligations.OperandLengthCounts : Prop :=
  let bytes := (List.range 256).map (BitVec.ofNat 8)
  let count := fun n => (bytes.filter (fun b => oplen (classify b).shape == n)).length
  count 0 = 212 ∧ count 1 = 18 ∧ count 2 = 26

/-- Field decode, R93: each field is the shift and mask of the opcode byte, so it is in the range of its table, and with
the operand bytes its shape has every kind has an operand text: no lookup is out of range, whatever the byte. -/
def Obligations.FieldsAreInRangeOfTheirTables : Prop :=
  ∀ b : Byte,
    ((bits53 b).toNat = (b.toNat >>> 3) &&& 7 ∧ (bits20 b).toNat = b.toNat &&& 7 ∧
     (bits54 b).toNat = (b.toNat >>> 4) &&& 3 ∧ (bit4 b).toNat = (b.toNat >>> 4) &&& 1) ∧
    ((bits53 b).toNat < REG.length ∧ (bits20 b).toNat < REG.length ∧ (bits54 b).toNat < RP_ARITH.length ∧
     (bits54 b).toNat < RP_STACK.length ∧ (bit4 b).toNat < 2) ∧
    ∀ (a : Nat) (ops : List Byte), ops.length = oplen (classify b).shape →
      ∃ t, operandText ⟨a, b, classify b, ops⟩ = some t

/-- The kind of an RST opcode holds the vector and the target n × 8, one of 0, 8, …, 56 (R146, R258); the byte 0xFF is RST 7
and never Unknown. -/
def Obligations.RstKindHoldsVectorAndTarget : Prop :=
  ∀ n : BitVec 3, classify (0xC7 ||| (n.zeroExtend 8 <<< 3)) = ⟨"RST", .rst, .vector n (8 * n.toNat)⟩

/-! ## The line of each instruction: what `exec` answers

Each of these is a completion: `exec` answers a next state, the one written, at every state whose `pos` is at most 0xFFFF.
`listed` changes `pos`, `cur` and `out` only, so each is its own frame as well: `status`, `diag`, the stream and every line
already in `out` stay as they are. The opcode bytes of group 1 and the `#$XX` and `$XXXX` forms are the spec's decisions D4
and D6 to D11. -/

/-- `41_no_operand.md`, R160 to R176: the bare mnemonic, one byte consumed, no other effect; HLT does not stop the run and EI,
DI and PCHL do nothing. -/
def Obligations.NoOperandInstructionsPrintTheirMnemonic : Prop :=
  ∀ s : State, Renderable s →
    Prints s .nop 1 "NOP" ∧ Prints s .hlt 1 "HLT" ∧ Prints s .rlc 1 "RLC" ∧ Prints s .rrc 1 "RRC" ∧
    Prints s .ral 1 "RAL" ∧ Prints s .rar 1 "RAR" ∧ Prints s .daa 1 "DAA" ∧ Prints s .cma 1 "CMA" ∧
    Prints s .stc 1 "STC" ∧ Prints s .cmc 1 "CMC" ∧ Prints s .xchg 1 "XCHG" ∧ Prints s .xthl 1 "XTHL" ∧
    Prints s .pchl 1 "PCHL" ∧ Prints s .sphl 1 "SPHL" ∧ Prints s .di 1 "DI" ∧ Prints s .ei 1 "EI"

/-- `46_control_transfer.md`, R249 to R257: a return prints its mnemonic and pops nothing (R230). -/
def Obligations.ReturnsPrintTheirMnemonic : Prop :=
  ∀ s : State, Renderable s →
    Prints s .ret 1 "RET" ∧ Prints s .rnz 1 "RNZ" ∧ Prints s .rz 1 "RZ" ∧ Prints s .rnc 1 "RNC" ∧
    Prints s .rc 1 "RC" ∧ Prints s .rpo 1 "RPO" ∧ Prints s .rpe 1 "RPE" ∧ Prints s .rp 1 "RP" ∧ Prints s .rm 1 "RM"

/-- `44_immediate.md`, R211 to R220: the immediate or device id as `#$XX`, two bytes consumed, no device accessed. -/
def Obligations.ImmediatesPrintTheirByte : Prop :=
  ∀ (s : State) (v : Byte), Renderable s →
    Prints s (.adi v) 2 ("ADI     #$" ++ hex2 v.toNat) ∧ Prints s (.aci v) 2 ("ACI     #$" ++ hex2 v.toNat) ∧
    Prints s (.sui v) 2 ("SUI     #$" ++ hex2 v.toNat) ∧ Prints s (.sbi v) 2 ("SBI     #$" ++ hex2 v.toNat) ∧
    Prints s (.ani v) 2 ("ANI     #$" ++ hex2 v.toNat) ∧ Prints s (.xri v) 2 ("XRI     #$" ++ hex2 v.toNat) ∧
    Prints s (.ori v) 2 ("ORI     #$" ++ hex2 v.toNat) ∧ Prints s (.cpi v) 2 ("CPI     #$" ++ hex2 v.toNat) ∧
    Prints s (.inp v) 2 ("IN      #$" ++ hex2 v.toNat) ∧ Prints s (.out v) 2 ("OUT     #$" ++ hex2 v.toNat)

/-- `45_direct_address.md`, R226 to R229: the address as `$XXXX`, three bytes consumed, nothing dereferenced. -/
def Obligations.DirectAddressesPrintTheirAddress : Prop :=
  ∀ (s : State) (w : Word), Renderable s →
    Prints s (.lda w) 3 ("LDA     $" ++ hex4 w.toNat) ∧ Prints s (.sta w) 3 ("STA     $" ++ hex4 w.toNat) ∧
    Prints s (.lhld w) 3 ("LHLD    $" ++ hex4 w.toNat) ∧ Prints s (.shld w) 3 ("SHLD    $" ++ hex4 w.toNat)

/-- `46_control_transfer.md`, R231 to R239: a jump prints its target, and `pos` becomes `a + 3`, never the target (R230). -/
def Obligations.JumpsPrintTheirTarget : Prop :=
  ∀ (s : State) (w : Word), Renderable s →
    Prints s (.jmp w) 3 ("JMP     $" ++ hex4 w.toNat) ∧ Prints s (.jnz w) 3 ("JNZ     $" ++ hex4 w.toNat) ∧
    Prints s (.jz w) 3 ("JZ      $" ++ hex4 w.toNat) ∧ Prints s (.jnc w) 3 ("JNC     $" ++ hex4 w.toNat) ∧
    Prints s (.jc w) 3 ("JC      $" ++ hex4 w.toNat) ∧ Prints s (.jpo w) 3 ("JPO     $" ++ hex4 w.toNat) ∧
    Prints s (.jpe w) 3 ("JPE     $" ++ hex4 w.toNat) ∧ Prints s (.jp w) 3 ("JP      $" ++ hex4 w.toNat) ∧
    Prints s (.jm w) 3 ("JM      $" ++ hex4 w.toNat)

/-- `46_control_transfer.md`, R240 to R248: a call prints its target, and `pos` becomes `a + 3`, never the target (R230). -/
def Obligations.CallsPrintTheirTarget : Prop :=
  ∀ (s : State) (w : Word), Renderable s →
    Prints s (.call w) 3 ("CALL    $" ++ hex4 w.toNat) ∧ Prints s (.cnz w) 3 ("CNZ     $" ++ hex4 w.toNat) ∧
    Prints s (.cz w) 3 ("CZ      $" ++ hex4 w.toNat) ∧ Prints s (.cnc w) 3 ("CNC     $" ++ hex4 w.toNat) ∧
    Prints s (.cc w) 3 ("CC      $" ++ hex4 w.toNat) ∧ Prints s (.cpo w) 3 ("CPO     $" ++ hex4 w.toNat) ∧
    Prints s (.cpe w) 3 ("CPE     $" ++ hex4 w.toNat) ∧ Prints s (.cp w) 3 ("CP      $" ++ hex4 w.toNat) ∧
    Prints s (.cm w) 3 ("CM      $" ++ hex4 w.toNat)

/-- R258: RST prints its vector as one decimal digit; the target is not printed and not followed. -/
def Obligations.RstPrintsItsVector : Prop :=
  ∀ (s : State) (n : BitVec 3), Renderable s →
    Prints s (.rst n) 1 ("RST     " ++ (["0", "1", "2", "3", "4", "5", "6", "7"].getD n.toNat ""))

/-- R181 with R33, R61: LXI prints the pair of arithmetic context and the immediate as `#$XXXX`, three bytes consumed. -/
def Obligations.LxiPrintsPairAndImmediate : Prop :=
  ∀ (s : State) (p : BitVec 2) (w : Word), Renderable s →
    Prints s (.lxi p w) 3 ("LXI     " ++ pairArith p ++ ",#$" ++ hex4 w.toNat)

/-- R180, R184 to R188, R94: INX, DCX and DAD print the pair of arithmetic context, POP and PUSH the pair of stack context;
field 3 is SP in the one and PSW in the other. One byte consumed; no stack is touched. -/
def Obligations.PairInstructionsPrintThePairOfTheirContext : Prop :=
  ∀ (s : State) (p : BitVec 2), Renderable s →
    Prints s (.inx p) 1 ("INX     " ++ pairArith p) ∧ Prints s (.dcx p) 1 ("DCX     " ++ pairArith p) ∧
    Prints s (.dad p) 1 ("DAD     " ++ pairArith p) ∧ Prints s (.pop p) 1 ("POP     " ++ pairStack p) ∧
    Prints s (.push p) 1 ("PUSH    " ++ pairStack p)

/-- R182, R183: STAX and LDAX print B or D by the one bit `b[4]`. -/
def Obligations.StaxAndLdaxPrintBOrD : Prop :=
  ∀ (s : State) (p : BitVec 1), Renderable s →
    Prints s (.stax p) 1 ("STAX    " ++ pairBit p) ∧ Prints s (.ldax p) 1 ("LDAX    " ++ pairBit p)

/-- R190 to R192, R195 to R202: the single-register instructions print their register, M like any other, one byte consumed
and no flag anywhere. -/
def Obligations.RegisterInstructionsPrintTheirRegister : Prop :=
  ∀ (s : State) (r : BitVec 3), Renderable s →
    Prints s (.inr r) 1 ("INR     " ++ regName r) ∧ Prints s (.dcr r) 1 ("DCR     " ++ regName r) ∧
    Prints s (.add r) 1 ("ADD     " ++ regName r) ∧ Prints s (.adc r) 1 ("ADC     " ++ regName r) ∧
    Prints s (.sub r) 1 ("SUB     " ++ regName r) ∧ Prints s (.sbb r) 1 ("SBB     " ++ regName r) ∧
    Prints s (.ana r) 1 ("ANA     " ++ regName r) ∧ Prints s (.xra r) 1 ("XRA     " ++ regName r) ∧
    Prints s (.ora r) 1 ("ORA     " ++ regName r) ∧ Prints s (.cmp r) 1 ("CMP     " ++ regName r)

/-- R193: MVI prints its register and its immediate joined by a comma, two bytes consumed (the join is the spec's decision
D10). -/
def Obligations.MviPrintsRegisterAndImmediate : Prop :=
  ∀ (s : State) (r : BitVec 3) (v : Byte), Renderable s →
    Prints s (.mvi r v) 2 ("MVI     " ++ regName r ++ ",#$" ++ hex2 v.toNat)

/-- R194: MOV prints destination, comma, source, for every pair of registers but M,M, whose byte is HLT. -/
def Obligations.MovPrintsDestinationThenSource : Prop :=
  ∀ (s : State) (d r : BitVec 3), Renderable s → ¬ (d = 6 ∧ r = 6) →
    Prints s (.mov d r) 1 ("MOV     " ++ regName d ++ "," ++ regName r)

/-- R271 at the level of `exec`: an Unknown opcode prints `UNKNOWN XX` on `out` and `Invalid opcode XX` on `diag`, consumes
one byte, and changes nothing else. The twelve bytes are the spec's decision D3. -/
def Obligations.UnknownOpcodePrintsAndLogs : Prop :=
  ∀ (s : State) (b : Byte), Renderable s → b ∈ Config.unknownSet →
    exec (.unknown b) s = .next { s with
      pos := s.pos + 1
      cur := none
      out := s.out ++ [hex4 s.pos ++ " UNKNOWN " ++ hex2 b.toNat ++ "\n"]
      diag := s.diag ++ ["Invalid opcode " ++ hex2 b.toNat ++ "\n"] }

/-- Every meaning against the classifier and the formatter: at a renderable address, `exec` of a well-formed instruction
appends exactly `format` of the record of the instruction's own bytes, as the classifier reads the opcode byte (R25, R84,
R110, R111, R141). -/
def Obligations.ExecPrintsTheFormattedRecordOfItsBytes : Prop :=
  ∀ (i : Instr) (s : State), wellFormed i = true → Renderable s →
    ∃ b ops l t, encode i = b :: ops ∧ format ⟨s.pos, b, classify b, ops⟩ = some l ∧
      exec i s = .next t ∧ t.out = s.out ++ [l]

/-- The frame of every instruction, the ill-formed terms among them: a next state has the same status and the same stream,
each byte of which reads as before, has no record, has `pos` moved by the instruction's own length and in no other way,
has one line more on `out` after the lines that were there, and has the same `diag` unless the instruction is Unknown, and
then one line more (R21, R28, R31, R53, R143, R230). -/
def Obligations.ExecFrame : Prop :=
  ∀ (i : Instr) (s t : State), exec i s = .next t →
    t.status = s.status ∧ t.input = s.input ∧ (∀ a, t.input.read a = s.input.read a) ∧ t.cur = none ∧
    t.pos = s.pos + (encode i).length ∧ (∃ l, t.out = s.out ++ [l]) ∧
    ((∀ b, i ≠ .unknown b) → t.diag = s.diag) ∧
    (∀ b, i = .unknown b → t.diag = s.diag ++ ["Invalid opcode " ++ hex2 b.toNat ++ "\n"])

/-- Every instruction is refused at an address above 0xFFFF, and at no other (R120, R309, the spec's decision D2). -/
def Obligations.ExecRefusesExactlyAboveFFFF : Prop :=
  ∀ (i : Instr) (s : State),
    (0xFFFF < s.pos → exec i s = .refused (.addressNotRenderable s.pos)) ∧
    (s.pos ≤ 0xFFFF → ∃ t, exec i s = .next t)

/-! ## Text -/

/-- The address field of the line a step prints, R112: four upper-case hex digits that denote the address of the opcode
byte, zero-padded, then one blank. -/
def Obligations.LineStartsWithTheOpcodeAddress : Prop :=
  ∀ s t : State, s.status = .running → step s = .next t → t.status = .running →
    ∃ addr rest, t.out = s.out ++ [addr ++ " " ++ rest] ∧ addr = hex4 s.pos ∧ HexText 4 addr ∧ readHex addr = s.pos

/-- `hex2` and `hex4` print the number in their fixed widths with upper-case digits: read back, the text denotes the number
(R9, R115, the spec's decision D7). -/
def Obligations.HexTextDenotesTheNumber : Prop :=
  (∀ v < 256, HexText 2 (hex2 v) ∧ readHex (hex2 v) = v) ∧
  (∀ v < 65536, HexText 4 (hex4 v) ∧ readHex (hex4 v) = v)

/-- Every line a step appends to `out` is a line of the grammar of R118 (derived there from R111 to R116). -/
def Obligations.PrintedLinesAreOfTheGrammar : Prop :=
  ∀ s t : State, s.status = .running → step s = .next t → ∀ l, t.out = s.out ++ [l] → Line l

/-- Every line a step appends to `out` has 8 to 23 characters (check X3), ends in the line feed and has no other, and is of
the character set of R10 (read as a rule of `out`: log entry 10). -/
def Obligations.PrintedLinesAreShortAscii : Prop :=
  ∀ s t : State, s.status = .running → step s = .next t → ∀ l, t.out = s.out ++ [l] →
    8 ≤ l.length ∧ l.length ≤ 23 ∧ (∀ c ∈ l.toList, c ∈ charset) ∧ l.toList.getLast? = some '\n' ∧
    l.toList.count '\n' = 1

/-- Byte order, R60 and R61: for any opcode with two operand bytes, `lo` at `a + 1` and `hi` at `a + 2`, the operand value is
`hi × 256 + lo` and the line of the step prints the high byte first, as four hex digits. -/
def Obligations.TwoByteOperandIsStoredLowAndPrintedHighFirst : Prop :=
  ∀ (s : State) (b lo hi : Byte), s.status = .running → Renderable s →
    s.input.read s.pos = some b → oplen (classify b).shape = 2 →
    s.input.read (s.pos + 1) = some lo → s.input.read (s.pos + 2) = some hi →
    hex2 hi.toNat ++ hex2 lo.toNat = hex4 (hi.toNat * 256 + lo.toNat) ∧
    (imm16 [lo, hi]).toNat = hi.toNat * 256 + lo.toNat ∧
    ∃ t front, step s = .next t ∧
      t.out = s.out ++ [front ++ "$" ++ (hex2 hi.toNat ++ hex2 lo.toNat) ++ "\n"]

/-! ## The step -/

/-- A step runs the decoded instruction: in status RUNNING, at a renderable address, when the bytes at `pos` decode to `i`,
the step is `exec i` at the same state, with nothing added around it (R140, R141, R147). The instruction is well-formed
(`DecodedBytesAreTheEncoding`). -/
def Obligations.StepRunsTheDecodedInstruction : Prop :=
  ∀ (s : State) (i : Instr) (rest : List Byte), s.status = .running → Renderable s →
    decode (s.input.bytesFrom s.pos 3) = .ok (i, rest) → step s = exec i s

/-- What `NextByte()` does, R54: below the end of the stream it answers the byte at `pos` and adds one to `pos`, its only
effect; at the end it answers the end marker and there is no other state; and after an end marker no step reads again,
because the run is over. That the step after it answers a fault, also after DONE, is the model's way to say that no step
is taken there: the model's choice, log entries 5 (DEDUCED) and 6 (DESIGN CHOICE). -/
def Obligations.NextByteReadsInOrder : Prop :=
  (∀ (s : State) (bs : List Byte) (e : EndMarker), s.input = streamOf bs e →
    (∀ h : s.pos < bs.length, nextByte s = .byte bs[s.pos] { s with pos := s.pos + 1 }) ∧
    (bs.length ≤ s.pos → e = .endOfStream → nextByte s = .endOfStream) ∧
    (bs.length ≤ s.pos → e = .ioError → nextByte s = .ioError)) ∧
  (∀ s t : State, (∃ e s', fetch s = .raised e s') ∨ fetch s = .endOfRun → s.status = .running →
    step s = .next t → ∃ f, step t = .fault f)

/-- End of the run, R142 (the spec's decisions D22, D31): where the stream ends at an instruction boundary, the step ends the
run DONE, prints nothing and leaves `pos`. -/
def Obligations.EndOfStreamAtBoundaryEndsDone : Prop :=
  ∀ s : State, s.status = .running → s.input.read s.pos = none → s.input.endMark = .endOfStream →
    step s = .next { s with status := .done, cur := none }

/-- DONE is reached in no other way (R142): from RUNNING, only where the stream ends at an instruction boundary. -/
def Obligations.DoneOnlyAtEndOfStream : Prop :=
  ∀ s t : State, step s = .next t → t.status = .done →
    s.status = .running ∧ s.input.read s.pos = none ∧ s.input.endMark = .endOfStream ∧
    t.pos = s.pos ∧ t.out = s.out ∧ t.diag = s.diag

/-- R303 (the spec's decision D16): a read that answers IOError, for the opcode or for operand `i`, raises `IOError(a)`: the
run is over in ABORT_IO, `pos` counts the bytes consumed, the lines stay and none is added. -/
def Obligations.ReadFailureAbortsTheRun : Prop :=
  ∀ s : State, s.status = .running → s.input.endMark = .ioError →
    (s.input.read s.pos = none →
      fetch s = .raised (.ioError s.pos) s ∧ step s = .next { s with status := .abortIO, cur := none }) ∧
    (∀ (b : Byte) (i : Nat), Renderable s → s.input.read s.pos = some b → i < oplen (classify b).shape →
      (∀ j < i, (s.input.read (s.pos + 1 + j)).isSome) → s.input.read (s.pos + 1 + i) = none →
      fetch s = .raised (.ioError s.pos) { s with pos := s.pos + 1 + i } ∧
      step s = .next { s with pos := s.pos + 1 + i, status := .abortIO, cur := none })

/-- R304 (the spec's decision D12): a stream that ends before operand `i` raises `TruncatedInstruction(a, b, i)`: the run is
over in ABORT_TRUNCATED, `pos = a + 1 + i`, the lines stay, none is added for the incomplete instruction. -/
def Obligations.StreamEndInsideInstructionTruncates : Prop :=
  ∀ (s : State) (b : Byte) (i : Nat), s.status = .running → s.input.endMark = .endOfStream → Renderable s →
    s.input.read s.pos = some b → i < oplen (classify b).shape →
    (∀ j < i, (s.input.read (s.pos + 1 + j)).isSome) → s.input.read (s.pos + 1 + i) = none →
    fetch s = .raised (.truncatedInstruction s.pos b i) { s with pos := s.pos + 1 + i } ∧
    step s = .next { s with pos := s.pos + 1 + i, status := .abortTruncated, cur := none }

/-- R309, R307 (the spec's decision D2): a step is refused exactly when an opcode byte is read at an address above 0xFFFF,
before the operand bytes are looked at; operand bytes above 0xFFFF are no reason. -/
def Obligations.StepRefusedExactlyAboveFFFF : Prop :=
  ∀ (s : State) (r : Refusal),
    step s = .refused r ↔
      (s.status = .running ∧ (s.input.read s.pos).isSome = true ∧ 0xFFFF < s.pos ∧ r = .addressNotRenderable s.pos)

/-- A terminal status is never left: a step asked for in one answers a fault, and only there (R23, R310, R315). The names of
the faults, and that a step in DONE answers one, are the model's (log entries 5, 6). -/
def Obligations.TerminalStatusIsNeverLeft : Prop :=
  (∀ s : State, s.status = .done → step s = .fault .runDone) ∧
  (∀ s : State, s.status = .abortIO → step s = .fault .ioAborted) ∧
  (∀ s : State, s.status = .abortTruncated → step s = .fault .truncatedAborted) ∧
  (∀ s : State, s.status = .abortInvariant → step s = .fault .invariantAborted) ∧
  (∀ (s : State) (f : Fault), step s = .fault f → s.status ≠ .running)

/-- R306: the invariant violation is unreachable. No step enters ABORT_INVARIANT and none raises it, at any state. -/
def Obligations.InvariantViolationIsUnreachable : Prop :=
  ∀ s : State, (∀ s', fetch s ≠ .raised .internalInvariantViolation s') ∧
    ∀ t, step s = .next t → t.status ≠ .abortInvariant

/-- What a step writes, R143. A step that decodes an instruction moves `pos` by `1 + oplen`, appends exactly one line to
`out` and exactly one to `diag` if and only if the shape is UNKNOWN, leaves the record without a value and the status
RUNNING; a step that ends the run appends nothing to either; no step changes a line that is there, or the stream. -/
def Obligations.StepWritesOneLineOrEndsTheRun : Prop :=
  ∀ s t : State, s.status = .running → step s = .next t →
    t.cur = none ∧ t.input = s.input ∧
    ((t.status = .running ∧ ∃ b l, s.input.read s.pos = some b ∧
        t.pos = s.pos + (1 + oplen (classify b).shape) ∧ t.out = s.out ++ [l] ∧
        t.diag = (if (classify b).shape = .unknown then s.diag ++ ["Invalid opcode " ++ hex2 b.toNat ++ "\n"] else s.diag)) ∨
     (t.status ≠ .running ∧ t.out = s.out ∧ t.diag = s.diag))

/-- R302: an Unknown opcode is an ordinary step: one `diag` line, one `out` line, `pos` advanced by one, status unchanged,
and nothing else. -/
def Obligations.UnknownOpcodeIsAnOrdinaryStep : Prop :=
  ∀ (s : State) (b : Byte), s.status = .running → Renderable s → s.input.read s.pos = some b →
    (classify b).shape = .unknown →
    step s = .next { s with
      pos := s.pos + 1
      cur := none
      out := s.out ++ [hex4 s.pos ++ " UNKNOWN " ++ hex2 b.toNat ++ "\n"]
      diag := s.diag ++ ["Invalid opcode " ++ hex2 b.toNat ++ "\n"] }

/-- There is no stuck state and no hang (R315): from RUNNING a step answers a next state or the refusal, and a next state is
over or has consumed a byte. -/
def Obligations.RunningStepMakesProgress : Prop :=
  ∀ s : State, s.status = .running →
    (∃ t, step s = .next t ∧ (t.status ≠ .running ∨ s.pos < t.pos)) ∨
    (∃ r, step s = .refused r)

/-- A step depends on nothing a run printed before (R27, R144): with any other lines in `out` and `diag` it appends the same
lines, and does the same otherwise. -/
def Obligations.StepDoesNotReadItsOutput : Prop :=
  ∀ s t : State, step s = .next t →
    ∃ ls ds, t.out = s.out ++ ls ∧ t.diag = s.diag ++ ds ∧
      ∀ (o d : List String), step { s with out := o, diag := d } = .next { t with out := o ++ ls, diag := d ++ ds }

/-- A step that decodes an instruction depends only on the bytes it consumes (R52, R98, R350): in any other stream that has
the same bytes at the addresses from `pos` to the end of the instruction, it does the same. -/
def Obligations.StepReadsOnlyTheBytesItConsumes : Prop :=
  ∀ (s t : State) (inp : Input), step s = .next t → t.status = .running →
    (∀ a, s.pos ≤ a → a < t.pos → inp.read a = s.input.read a) →
    step { s with input := inp } = .next { t with input := inp }

/-! ## Invariants and whole runs -/

/-- The invariant holds at reset, and at reset with any stream bound (R37, R340, R342; the empty stream of `State.reset` is
the model's choice, log entry 2). -/
def Obligations.InvariantHoldsAtReset : Prop :=
  State.reset.Inv ∧ ∀ (bs : List Byte) (e : EndMarker), (boot (streamOf bs e)).Inv

/-- Every step keeps the invariant: canonical stream, `pos ≤ L`, no record between steps, a run that is over stands at the
end of its stream under the marker its status says, and no invariant violation (R25, R50, R142, R145, R303, R304, R306). -/
def Obligations.EveryStepKeepsTheInvariant : Prop :=
  ∀ s t : State, s.Inv → step s = .next t → t.Inv

/-- The listing predicate holds at reset with any stream bound. -/
def Obligations.ListingHoldsAtReset : Prop := ∀ inp : Input, (boot inp).Listing

/-- Every step keeps the listing: `out` and `diag` are always exactly the lines of the instructions consumed so far, in
order, each address the sum of the lengths before it, one `diag` line per Unknown one, and nothing of an instruction in
progress (R21, R28, R145 a, c, e, R303, R304, R308). -/
def Obligations.EveryStepKeepsTheListing : Prop :=
  ∀ s t : State, s.Listing → step s = .next t → t.Listing

/-- A run ends (R315): from any running state with the invariant, within `L - pos + 1` steps it is in a terminal status, or
it is refused, and it is refused only at an address above 0xFFFF (R309, the spec's decision D2), so never when
`L ≤ 65536`. -/
def Obligations.EveryRunEnds : Prop :=
  ∀ s : State, s.Inv → s.status = .running →
    ∃ k ≤ s.input.length - s.pos + 1,
      (∃ t, core.run k s = .next t ∧ t.status ≠ .running) ∨
      (0x10000 < s.input.length ∧ ∃ a, 0xFFFF < a ∧ core.run k s = .refused (.addressNotRenderable a))

/-- A whole run is the reference listing: on every stream of at most 65536 bytes, with either end marker, the run from reset
ends within `L + 1` steps with exactly the `out`, `diag`, `pos` and `status` that `disassemble` computes from the list of
bytes (R141 to R145; the premise is that of R120, the spec's decision D2). The streams of 65537 and 65538 bytes that R309
lets be rendered are in `RunWithRenderableStartsIsItsReferenceListing`. -/
def Obligations.RunOfAStreamIsItsReferenceListing : Prop :=
  ∀ (bs : List Byte) (e : EndMarker), bs.length ≤ 0x10000 →
    let r := disassemble e (bs.length + 1) 0 bs
    r.status ≠ .running ∧
    ∃ k ≤ bs.length + 1, core.run k (boot (streamOf bs e)) =
      .next { pos := r.pos, status := r.status, cur := none, out := r.out, diag := r.diag, input := streamOf bs e }

/-- The same under the weaker premise of R309 (the spec's decision D2): a run is its reference listing on every stream whose
instructions all start at or below 0xFFFF, whatever its length. Operand bytes may lie above 0xFFFF, so the stream may have
up to 65538 bytes. -/
def Obligations.RunWithRenderableStartsIsItsReferenceListing : Prop :=
  ∀ (bs : List Byte) (e : EndMarker), StartsRenderable (bs.length + 1) 0 bs →
    let r := disassemble e (bs.length + 1) 0 bs
    r.status ≠ .running ∧
    ∃ k ≤ bs.length + 1, core.run k (boot (streamOf bs e)) =
      .next { pos := r.pos, status := r.status, cur := none, out := r.out, diag := r.diag, input := streamOf bs e }
end

