-- ==== Sys2Proof/Laws/Decode.lean ====
section
/-! SUPPORT. What the classifier gives for the opcode byte of each masked family, for every field value (R87 group 2), and
for each exact opcode byte (group 1) and for the Unknown bytes (group 3). -/

namespace Sys2Proof

theorem classify_nop : classify 0x00 = ⟨"NOP", .none, .none⟩ := by decide
theorem classify_hlt : classify 0x76 = ⟨"HLT", .none, .none⟩ := by decide
theorem classify_rlc : classify 0x07 = ⟨"RLC", .none, .none⟩ := by decide
theorem classify_rrc : classify 0x0F = ⟨"RRC", .none, .none⟩ := by decide
theorem classify_ral : classify 0x17 = ⟨"RAL", .none, .none⟩ := by decide
theorem classify_rar : classify 0x1F = ⟨"RAR", .none, .none⟩ := by decide
theorem classify_daa : classify 0x27 = ⟨"DAA", .none, .none⟩ := by decide
theorem classify_cma : classify 0x2F = ⟨"CMA", .none, .none⟩ := by decide
theorem classify_stc : classify 0x37 = ⟨"STC", .none, .none⟩ := by decide
theorem classify_cmc : classify 0x3F = ⟨"CMC", .none, .none⟩ := by decide
theorem classify_xchg : classify 0xEB = ⟨"XCHG", .none, .none⟩ := by decide
theorem classify_xthl : classify 0xE3 = ⟨"XTHL", .none, .none⟩ := by decide
theorem classify_pchl : classify 0xE9 = ⟨"PCHL", .none, .none⟩ := by decide
theorem classify_sphl : classify 0xF9 = ⟨"SPHL", .none, .none⟩ := by decide
theorem classify_di : classify 0xF3 = ⟨"DI", .none, .none⟩ := by decide
theorem classify_ei : classify 0xFB = ⟨"EI", .none, .none⟩ := by decide
theorem classify_adi : classify 0xC6 = ⟨"ADI", .imm8, .none⟩ := by decide
theorem classify_aci : classify 0xCE = ⟨"ACI", .imm8, .none⟩ := by decide
theorem classify_sui : classify 0xD6 = ⟨"SUI", .imm8, .none⟩ := by decide
theorem classify_sbi : classify 0xDE = ⟨"SBI", .imm8, .none⟩ := by decide
theorem classify_ani : classify 0xE6 = ⟨"ANI", .imm8, .none⟩ := by decide
theorem classify_xri : classify 0xEE = ⟨"XRI", .imm8, .none⟩ := by decide
theorem classify_ori : classify 0xF6 = ⟨"ORI", .imm8, .none⟩ := by decide
theorem classify_cpi : classify 0xFE = ⟨"CPI", .imm8, .none⟩ := by decide
theorem classify_inp : classify 0xDB = ⟨"IN", .imm8, .none⟩ := by decide
theorem classify_out : classify 0xD3 = ⟨"OUT", .imm8, .none⟩ := by decide
theorem classify_lda : classify 0x3A = ⟨"LDA", .addr16, .none⟩ := by decide
theorem classify_sta : classify 0x32 = ⟨"STA", .addr16, .none⟩ := by decide
theorem classify_lhld : classify 0x2A = ⟨"LHLD", .addr16, .none⟩ := by decide
theorem classify_shld : classify 0x22 = ⟨"SHLD", .addr16, .none⟩ := by decide
theorem classify_jmp : classify 0xC3 = ⟨"JMP", .addr16, .none⟩ := by decide
theorem classify_jnz : classify 0xC2 = ⟨"JNZ", .addr16, .none⟩ := by decide
theorem classify_jz : classify 0xCA = ⟨"JZ", .addr16, .none⟩ := by decide
theorem classify_jnc : classify 0xD2 = ⟨"JNC", .addr16, .none⟩ := by decide
theorem classify_jc : classify 0xDA = ⟨"JC", .addr16, .none⟩ := by decide
theorem classify_jpo : classify 0xE2 = ⟨"JPO", .addr16, .none⟩ := by decide
theorem classify_jpe : classify 0xEA = ⟨"JPE", .addr16, .none⟩ := by decide
theorem classify_jp : classify 0xF2 = ⟨"JP", .addr16, .none⟩ := by decide
theorem classify_jm : classify 0xFA = ⟨"JM", .addr16, .none⟩ := by decide
theorem classify_call : classify 0xCD = ⟨"CALL", .addr16, .none⟩ := by decide
theorem classify_cnz : classify 0xC4 = ⟨"CNZ", .addr16, .none⟩ := by decide
theorem classify_cz : classify 0xCC = ⟨"CZ", .addr16, .none⟩ := by decide
theorem classify_cnc : classify 0xD4 = ⟨"CNC", .addr16, .none⟩ := by decide
theorem classify_cc : classify 0xDC = ⟨"CC", .addr16, .none⟩ := by decide
theorem classify_cpo : classify 0xE4 = ⟨"CPO", .addr16, .none⟩ := by decide
theorem classify_cpe : classify 0xEC = ⟨"CPE", .addr16, .none⟩ := by decide
theorem classify_cp : classify 0xF4 = ⟨"CP", .addr16, .none⟩ := by decide
theorem classify_cm : classify 0xFC = ⟨"CM", .addr16, .none⟩ := by decide
theorem classify_ret : classify 0xC9 = ⟨"RET", .none, .none⟩ := by decide
theorem classify_rnz : classify 0xC0 = ⟨"RNZ", .none, .none⟩ := by decide
theorem classify_rz : classify 0xC8 = ⟨"RZ", .none, .none⟩ := by decide
theorem classify_rnc : classify 0xD0 = ⟨"RNC", .none, .none⟩ := by decide
theorem classify_rc : classify 0xD8 = ⟨"RC", .none, .none⟩ := by decide
theorem classify_rpo : classify 0xE0 = ⟨"RPO", .none, .none⟩ := by decide
theorem classify_rpe : classify 0xE8 = ⟨"RPE", .none, .none⟩ := by decide
theorem classify_rp : classify 0xF0 = ⟨"RP", .none, .none⟩ := by decide
theorem classify_rm : classify 0xF8 = ⟨"RM", .none, .none⟩ := by decide

theorem classify_lxi : ∀ p : BitVec 2,
    classify (0b00#2 ++ p ++ 0b0001#4) = ⟨"LXI", .rpImm16, .pair p⟩ := by decide

theorem classify_stax : ∀ p : BitVec 1,
    classify (0b000#3 ++ p ++ 0b0010#4) = ⟨"STAX", .rpBD, .pairBit p⟩ := by decide

theorem classify_ldax : ∀ p : BitVec 1,
    classify (0b000#3 ++ p ++ 0b1010#4) = ⟨"LDAX", .rpBD, .pairBit p⟩ := by decide

theorem classify_inx : ∀ p : BitVec 2,
    classify (0b00#2 ++ p ++ 0b0011#4) = ⟨"INX", .rpArith, .pair p⟩ := by decide

theorem classify_dcx : ∀ p : BitVec 2,
    classify (0b00#2 ++ p ++ 0b1011#4) = ⟨"DCX", .rpArith, .pair p⟩ := by decide

theorem classify_dad : ∀ p : BitVec 2,
    classify (0b00#2 ++ p ++ 0b1001#4) = ⟨"DAD", .rpArith, .pair p⟩ := by decide

theorem classify_inr : ∀ r : BitVec 3,
    classify (0b00#2 ++ r ++ 0b100#3) = ⟨"INR", .regD, .reg r⟩ := by decide

theorem classify_dcr : ∀ r : BitVec 3,
    classify (0b00#2 ++ r ++ 0b101#3) = ⟨"DCR", .regD, .reg r⟩ := by decide

theorem classify_mvi : ∀ r : BitVec 3,
    classify (0b00#2 ++ r ++ 0b110#3) = ⟨"MVI", .regImm8, .reg r⟩ := by decide

theorem classify_mov : ∀ d s : BitVec 3, wellFormed (.mov d s) = true →
    classify (0b01#2 ++ d ++ s) = ⟨"MOV", .mov, .regs d s⟩ := by decide

theorem classify_add : ∀ r : BitVec 3,
    classify (0b10000#5 ++ r) = ⟨"ADD", .regS, .reg r⟩ := by decide

theorem classify_adc : ∀ r : BitVec 3,
    classify (0b10001#5 ++ r) = ⟨"ADC", .regS, .reg r⟩ := by decide

theorem classify_sub : ∀ r : BitVec 3,
    classify (0b10010#5 ++ r) = ⟨"SUB", .regS, .reg r⟩ := by decide

theorem classify_sbb : ∀ r : BitVec 3,
    classify (0b10011#5 ++ r) = ⟨"SBB", .regS, .reg r⟩ := by decide

theorem classify_ana : ∀ r : BitVec 3,
    classify (0b10100#5 ++ r) = ⟨"ANA", .regS, .reg r⟩ := by decide

theorem classify_xra : ∀ r : BitVec 3,
    classify (0b10101#5 ++ r) = ⟨"XRA", .regS, .reg r⟩ := by decide

theorem classify_ora : ∀ r : BitVec 3,
    classify (0b10110#5 ++ r) = ⟨"ORA", .regS, .reg r⟩ := by decide

theorem classify_cmp : ∀ r : BitVec 3,
    classify (0b10111#5 ++ r) = ⟨"CMP", .regS, .reg r⟩ := by decide

theorem classify_pop : ∀ p : BitVec 2,
    classify (0b11#2 ++ p ++ 0b0001#4) = ⟨"POP", .rpStack, .pair p⟩ := by decide

theorem classify_push : ∀ p : BitVec 2,
    classify (0b11#2 ++ p ++ 0b0101#4) = ⟨"PUSH", .rpStack, .pair p⟩ := by decide

theorem classify_rst : ∀ n : BitVec 3,
    classify (0b11#2 ++ n ++ 0b111#3) = ⟨"RST", .rst, .vector n (rstTarget n)⟩ := by decide

theorem classify_unknown : ∀ b : Byte, wellFormed (.unknown b) = true →
    classify b = ⟨"UNKNOWN", .unknown, .raw b⟩ := by
  have h : ∀ b ∈ Config.unknownSet, classify b = ⟨"UNKNOWN", .unknown, .raw b⟩ := by decide
  exact fun b hb => h b (by simpa [wellFormed] using hb)

/-! ## The bytes of a 16-bit operand (R60, R92) -/

@[simp] theorem lowByte_append (hi lo : Byte) : lowByte (hi ++ lo) = lo := by
  ext i h
  rw [lowByte, BitVec.getElem_extractLsb']
  exact (BitVec.getLsbD_append (x := hi) (y := lo) (i := 0 + i)).trans (by simp [h, BitVec.getLsbD_eq_getElem])

@[simp] theorem highByte_append (hi lo : Byte) : highByte (hi ++ lo) = hi := by
  ext i h
  rw [highByte, BitVec.getElem_extractLsb']
  exact (BitVec.getLsbD_append (x := hi) (y := lo) (i := 8 + i)).trans (by simp [h, BitVec.getLsbD_eq_getElem])

@[simp] theorem highByte_append_lowByte (w : Word) : highByte w ++ lowByte w = w := by
  ext i h
  simp only [BitVec.getElem_append, highByte, lowByte, BitVec.getElem_extractLsb']
  split
  · simp [BitVec.getElem_eq_testBit_toNat, BitVec.getLsbD]
  · simp [BitVec.getElem_eq_testBit_toNat, BitVec.getLsbD, show 8 + (i - 8) = i by omega]

end Sys2Proof
end

