-- ==== Sys2Proof/Laws/Memory.lean ====
section
/-! SUPPORT. Laws of the address space: read after write, and that the canonical form is kept. -/

namespace Sys2Proof.Machine

@[simp] theorem Memory.read_nil (a : Nat) : Memory.read [] a = none := rfl

theorem Memory.read_cons (k : Nat) (v : Byte) (m : Memory) (a : Nat) :
    Memory.read ((k, v) :: m) a = if k = a then some v else Memory.read m a := rfl

/-- A read after a write to the same address gives the byte written. -/
theorem Memory.read_write_same (m : Memory) (a : Nat) (v : Byte) : Memory.read (m.write a v) a = some v := by
  induction m with
  | nil => simp [Memory.write, Memory.read]
  | cons c m ih =>
    obtain ⟨k, w⟩ := c
    simp only [Memory.write]
    split_ifs with h₁ h₂
    · simp [Memory.read]
    · simp [Memory.read]
    · simp [Memory.read, Ne.symm h₂, ih]

/-- A write leaves every other address alone. -/
theorem Memory.read_write_other (m : Memory) {a b : Nat} (v : Byte) (h : a ≠ b) :
    Memory.read (m.write a v) b = Memory.read m b := by
  induction m with
  | nil => simp [Memory.write, Memory.read, h]
  | cons c m ih =>
    obtain ⟨k, w⟩ := c
    simp only [Memory.write]
    split_ifs with h₁ h₂
    · simp [Memory.read, h]
    · subst h₂; simp [Memory.read, h]
    · simp [Memory.read, ih]

/-- The canonical form from address `k` on, in the shape an induction needs. -/
theorem Memory.wf_iff (m : Memory) : Memory.wf m = true ↔ m.map (·.1) = List.range' 0 m.length := by
  simp [Memory.wf, List.range_eq_range']

/-- In a list of cells at addresses `k`, `k+1`, …, exactly the listed addresses hold a byte. -/
theorem Memory.read_isSome_of_range' {k : Nat} {m : Memory} (h : m.map (·.1) = List.range' k m.length) (a : Nat) :
    (Memory.read m a).isSome = true ↔ k ≤ a ∧ a < k + m.length := by
  induction m generalizing k with
  | nil => simp [Memory.read]
  | cons c m ih =>
    obtain ⟨j, w⟩ := c
    simp only [List.map_cons, List.length_cons, List.range'_succ, List.cons.injEq] at h
    obtain ⟨rfl, h⟩ := h
    rw [Memory.read_cons]
    split_ifs with hja
    · subst hja; simp
    · rw [ih h]; simp only [List.length_cons]; omega

/-- The stream holds a byte at `a` exactly when `a < L` (R50, R54). -/
theorem Memory.read_isSome {m : Memory} (h : Memory.wf m = true) (a : Nat) :
    (Memory.read m a).isSome = true ↔ a < m.length := by
  rw [Memory.read_isSome_of_range' ((Memory.wf_iff m).1 h) a]; omega

theorem Memory.write_range' {k : Nat} {m : Memory} (h : m.map (·.1) = List.range' k m.length) {a : Nat} (v : Byte)
    (hk : k ≤ a) (ha : a ≤ k + m.length) :
    (m.write a v).map (·.1) = List.range' k (m.write a v).length := by
  induction m generalizing k with
  | nil =>
    have : a = k := by simp at ha; omega
    subst this; simp [Memory.write]
  | cons c m ih =>
    obtain ⟨j, w⟩ := c
    simp only [List.map_cons, List.length_cons, List.range'_succ, List.cons.injEq] at h ha
    obtain ⟨rfl, h⟩ := h
    simp only [Memory.write]
    split_ifs with h₁ h₂
    · omega
    · subst h₂; simp [List.range'_succ, h]
    · simp only [List.map_cons, List.length_cons, List.range'_succ]
      rw [ih h (by omega) (by omega)]

/-- A write at or below the end of the stream keeps the canonical form. -/
theorem Memory.write_wf {m : Memory} (h : Memory.wf m = true) {a : Nat} (v : Byte) (ha : a ≤ m.length) :
    Memory.wf (m.write a v) = true :=
  (Memory.wf_iff _).2 (Memory.write_range' ((Memory.wf_iff m).1 h) v (Nat.zero_le a) (by omega))

theorem Memory.length_le_write (m : Memory) (a : Nat) (v : Byte) : m.length ≤ (m.write a v).length := by
  induction m with
  | nil => simp
  | cons c m ih => obtain ⟨k, w⟩ := c; simp only [Memory.write]; split_ifs <;> simp [ih]

/-- A write of a canonical stream puts its address below the new end. -/
theorem Memory.lt_length_write {m : Memory} (h : Memory.wf m = true) {a : Nat} (v : Byte) (ha : a ≤ m.length) :
    a < (m.write a v).length :=
  (Memory.read_isSome (Memory.write_wf h v ha) a).1 (by simp [Memory.read_write_same])

theorem Memory.writeBytes_wf {m : Memory} (h : Memory.wf m = true) {a : Nat} (bs : List Byte) (ha : a ≤ m.length) :
    Memory.wf (m.writeBytes a bs) = true := by
  induction bs generalizing m a with
  | nil => exact h
  | cons b bs ih => exact ih (Memory.write_wf h b ha) (Memory.lt_length_write h b ha)

/-- A write of several bytes leaves every address below the first one alone. -/
theorem Memory.read_writeBytes_below (m : Memory) {a b : Nat} (vs : List Byte) (h : b < a) :
    Memory.read (m.writeBytes a vs) b = Memory.read m b := by
  induction vs generalizing m a with
  | nil => rfl
  | cons v vs ih => exact (ih (m.write a v) (by omega)).trans (Memory.read_write_other m v (by omega))

/-- The bytes written at an address are the bytes that stand there. -/
theorem bytesFrom_writeBytes (m : Memory) (a : Nat) (vs : List Byte) (e : EndMarker) :
    Input.bytesFrom ⟨m.writeBytes a vs, e⟩ a vs.length = vs := by
  induction vs generalizing m a with
  | nil => rfl
  | cons v vs ih =>
    have h : Input.read ⟨(m.write a v).writeBytes (a + 1) vs, e⟩ a = some v :=
      (Memory.read_writeBytes_below (m.write a v) vs (by omega)).trans (Memory.read_write_same m a v)
    simp only [List.length_cons, Input.bytesFrom, Memory.writeBytes, h, ih]

/-! The stream of a list of bytes. -/

theorem cellsFrom_length (a : Nat) (bs : List Byte) : (cellsFrom a bs).length = bs.length := by
  induction bs generalizing a with
  | nil => rfl
  | cons b bs ih => simp [cellsFrom, ih]

theorem cellsFrom_keys (a : Nat) (bs : List Byte) :
    (cellsFrom a bs).map (·.1) = List.range' a (cellsFrom a bs).length := by
  induction bs generalizing a with
  | nil => rfl
  | cons b bs ih => simp only [cellsFrom, List.map_cons, List.length_cons, List.range'_succ]; rw [ih]

theorem read_cellsFrom (a : Nat) (bs : List Byte) (i : Nat) : Memory.read (cellsFrom a bs) (a + i) = bs[i]? := by
  induction bs generalizing a i with
  | nil => simp [cellsFrom]
  | cons b bs ih =>
    cases i with
    | zero => simp [cellsFrom, Memory.read]
    | succ i =>
      have := ih (a + 1) i
      simp only [cellsFrom, Memory.read]
      rw [if_neg (by omega), show a + (i + 1) = a + 1 + i by omega, this]
      simp

/-- Byte `B[i]` stands at address `i` (R50). -/
@[simp] theorem streamOf_read (bs : List Byte) (e : EndMarker) (i : Nat) : (streamOf bs e).read i = bs[i]? := by
  simpa [streamOf, Input.read] using read_cellsFrom 0 bs i

@[simp] theorem streamOf_length (bs : List Byte) (e : EndMarker) : (streamOf bs e).length = bs.length := by
  simp [streamOf, Input.length, cellsFrom_length]

@[simp] theorem streamOf_endMark (bs : List Byte) (e : EndMarker) : (streamOf bs e).endMark = e := rfl

theorem streamOf_wf (bs : List Byte) (e : EndMarker) : Memory.wf (streamOf bs e).cells = true :=
  (Memory.wf_iff _).2 (cellsFrom_keys 0 bs)

end Sys2Proof.Machine
end

