-- ==== Sys2Proof/Laws/State.lean ====
section
/-! SUPPORT. One lemma per field and update of the state, so that no proof unfolds a record update. -/

namespace Sys2Proof.Machine

variable (s : State)

@[simp] theorem advance_pos : (s.advance).pos = s.pos + 1 := rfl
@[simp] theorem advance_status : (s.advance).status = s.status := rfl
@[simp] theorem advance_cur : (s.advance).cur = s.cur := rfl
@[simp] theorem advance_out : (s.advance).out = s.out := rfl
@[simp] theorem advance_diag : (s.advance).diag = s.diag := rfl
@[simp] theorem advance_input : (s.advance).input = s.input := rfl

@[simp] theorem emit_pos (l : String) : (s.emit l).pos = s.pos := rfl
@[simp] theorem emit_status (l : String) : (s.emit l).status = s.status := rfl
@[simp] theorem emit_cur (l : String) : (s.emit l).cur = s.cur := rfl
@[simp] theorem emit_out (l : String) : (s.emit l).out = s.out ++ [l] := rfl
@[simp] theorem emit_diag (l : String) : (s.emit l).diag = s.diag := rfl
@[simp] theorem emit_input (l : String) : (s.emit l).input = s.input := rfl

@[simp] theorem log_pos (l : String) : (s.log l).pos = s.pos := rfl
@[simp] theorem log_status (l : String) : (s.log l).status = s.status := rfl
@[simp] theorem log_cur (l : String) : (s.log l).cur = s.cur := rfl
@[simp] theorem log_out (l : String) : (s.log l).out = s.out := rfl
@[simp] theorem log_diag (l : String) : (s.log l).diag = s.diag ++ [l] := rfl
@[simp] theorem log_input (l : String) : (s.log l).input = s.input := rfl

@[simp] theorem latch_pos (c : InstrRecord) : (s.latch c).pos = s.pos := rfl
@[simp] theorem latch_status (c : InstrRecord) : (s.latch c).status = s.status := rfl
@[simp] theorem latch_cur (c : InstrRecord) : (s.latch c).cur = some c := rfl
@[simp] theorem latch_out (c : InstrRecord) : (s.latch c).out = s.out := rfl
@[simp] theorem latch_diag (c : InstrRecord) : (s.latch c).diag = s.diag := rfl
@[simp] theorem latch_input (c : InstrRecord) : (s.latch c).input = s.input := rfl

@[simp] theorem endStep_pos : s.endStep.pos = s.pos := rfl
@[simp] theorem endStep_status : s.endStep.status = s.status := rfl
@[simp] theorem endStep_cur : s.endStep.cur = none := rfl
@[simp] theorem endStep_out : s.endStep.out = s.out := rfl
@[simp] theorem endStep_diag : s.endStep.diag = s.diag := rfl
@[simp] theorem endStep_input : s.endStep.input = s.input := rfl

@[simp] theorem finish_pos : s.finish.pos = s.pos := rfl
@[simp] theorem finish_status : s.finish.status = .done := rfl
@[simp] theorem finish_cur : s.finish.cur = none := rfl
@[simp] theorem finish_out : s.finish.out = s.out := rfl
@[simp] theorem finish_diag : s.finish.diag = s.diag := rfl
@[simp] theorem finish_input : s.finish.input = s.input := rfl

@[simp] theorem raise_pos (e : Exception) : (s.raise e).pos = s.pos := rfl
@[simp] theorem raise_status (e : Exception) : (s.raise e).status = e.status := rfl
@[simp] theorem raise_cur (e : Exception) : (s.raise e).cur = none := rfl
@[simp] theorem raise_out (e : Exception) : (s.raise e).out = s.out := rfl
@[simp] theorem raise_diag (e : Exception) : (s.raise e).diag = s.diag := rfl
@[simp] theorem raise_input (e : Exception) : (s.raise e).input = s.input := rfl

@[simp] theorem storeAtPos_pos (bs : List Byte) : (s.storeAtPos bs).pos = s.pos := rfl
@[simp] theorem storeAtPos_status (bs : List Byte) : (s.storeAtPos bs).status = .running := rfl
@[simp] theorem storeAtPos_cur (bs : List Byte) : (s.storeAtPos bs).cur = s.cur := rfl
@[simp] theorem storeAtPos_out (bs : List Byte) : (s.storeAtPos bs).out = s.out := rfl
@[simp] theorem storeAtPos_diag (bs : List Byte) : (s.storeAtPos bs).diag = s.diag := rfl
@[simp] theorem storeAtPos_input (bs : List Byte) : (s.storeAtPos bs).input = { s.input with cells := s.input.cells.writeBytes s.pos bs } := rfl

@[simp] theorem boot_pos (i : Input) : (boot i).pos = 0 := rfl
@[simp] theorem boot_status (i : Input) : (boot i).status = .running := rfl
@[simp] theorem boot_cur (i : Input) : (boot i).cur = none := rfl
@[simp] theorem boot_out (i : Input) : (boot i).out = [] := rfl
@[simp] theorem boot_diag (i : Input) : (boot i).diag = [] := rfl
@[simp] theorem boot_input (i : Input) : (boot i).input = i := rfl

@[simp] theorem position_eq : position s = s.pos := rfl

/-- `n` successful reads add `n` to `pos` and change nothing else (R54). -/
@[simp] theorem consume_eq (n : Nat) : s.consume n = { s with pos := s.pos + n } := by
  induction n generalizing s with
  | zero => rfl
  | succ n ih => simp [State.consume, ih, State.advance, Nat.add_assoc, Nat.add_comm 1]

end Sys2Proof.Machine
end

