-- ==== Sys2Proof/Laws/Ops.lean ====
section
/-! SUPPORT. One lemma per shared operation that says everything it can do; proofs cite these and do not unfold the
operations. -/

namespace Sys2Proof.Machine

variable {s s' t : State}

/-! ## NextByte -/

theorem nextByte_some {v : Byte} (h : s.input.read s.pos = some v) : nextByte s = .byte v s.advance := by
  simp [nextByte, h]

theorem nextByte_end (h : s.input.read s.pos = none) (he : s.input.endMark = .endOfStream) :
    nextByte s = .endOfStream := by simp [nextByte, h, he]

theorem nextByte_fail (h : s.input.read s.pos = none) (he : s.input.endMark = .ioError) :
    nextByte s = .ioError := by simp [nextByte, h, he]

/-- Everything one read can do (R54). -/
theorem nextByte_cases (s : State) :
    (∃ v, s.input.read s.pos = some v ∧ nextByte s = .byte v s.advance) ∨
    (s.input.read s.pos = none ∧ s.input.endMark = .endOfStream ∧ nextByte s = .endOfStream) ∨
    (s.input.read s.pos = none ∧ s.input.endMark = .ioError ∧ nextByte s = .ioError) := by
  rcases h : s.input.read s.pos with _ | v
  · rcases he : s.input.endMark
    · exact .inr (.inl ⟨rfl, rfl, nextByte_end h he⟩)
    · exact .inr (.inr ⟨rfl, rfl, nextByte_fail h he⟩)
  · exact .inl ⟨v, rfl, nextByte_some h⟩

/-! ## bytesFrom -/

theorem bytesFrom_length_le (inp : Input) (a n : Nat) : (inp.bytesFrom a n).length ≤ n := by
  induction n generalizing a with
  | zero => simp [Input.bytesFrom]
  | succ n ih => simp only [Input.bytesFrom]; split <;> simp [ih]

/-- As many bytes as asked for stand there exactly when each address holds one. -/
theorem bytesFrom_length_eq {inp : Input} {a n : Nat} :
    (inp.bytesFrom a n).length = n ↔ ∀ j < n, (inp.read (a + j)).isSome = true := by
  induction n generalizing a with
  | zero => simp [Input.bytesFrom]
  | succ n ih =>
    simp only [Input.bytesFrom]
    rcases h : inp.read a with _ | v
    · constructor
      · intro h'; simp at h'
      · intro h'; simpa [h] using h' 0 (by omega)
    · simp only [List.length_cons, Nat.add_right_cancel_iff]
      rw [ih]
      constructor
      · intro h' j hj
        cases j with
        | zero => simp [h]
        | succ j => simpa [Nat.add_assoc, Nat.add_comm 1] using h' j (by omega)
      · intro h' j hj
        simpa [Nat.add_assoc, Nat.add_comm 1] using h' (j + 1) (by omega)

/-- Fewer bytes than asked for: the address after the last one holds none. -/
theorem bytesFrom_short {inp : Input} {a n : Nat} (h : (inp.bytesFrom a n).length < n) :
    inp.read (a + (inp.bytesFrom a n).length) = none := by
  induction n generalizing a with
  | zero => simp at h
  | succ n ih =>
    simp only [Input.bytesFrom] at h ⊢
    rcases hr : inp.read a with _ | v
    · simpa using hr
    · simp only [hr, List.length_cons] at h ⊢
      have := ih (a := a + 1) (by omega)
      rwa [show a + 1 + (inp.bytesFrom (a + 1) n).length = a + ((inp.bytesFrom (a + 1) n).length + 1) by omega] at this

/-! ## The operand reads -/

/-- The operand bytes are all there: they are read in order, and `pos` stands after them (R91). -/
theorem readOperands_ok (a : Nat) (b : Byte) {n : Nat} (i : Nat) {s : State}
    (h : (s.input.bytesFrom s.pos n).length = n) :
    readOperands a b n i s = .ok (s.input.bytesFrom s.pos n, { s with pos := s.pos + n }) := by
  induction n generalizing i s with
  | zero => simp [readOperands, Input.bytesFrom]
  | succ n ih =>
    rcases nextByte_cases s with ⟨v, hv, hn⟩ | ⟨hv, -, -⟩ | ⟨hv, -, -⟩
    · simp only [Input.bytesFrom, hv, List.length_cons, Nat.add_right_cancel_iff] at h
      simp only [readOperands, hn, ih (s := s.advance) (i + 1) h, Input.bytesFrom, hv]
      simp [State.advance, Nat.add_assoc, Nat.add_comm 1]
    · simp [Input.bytesFrom, hv] at h
    · simp [Input.bytesFrom, hv] at h

/-- The stream ends before the operand bytes are all there: the exception of the read that answers the end marker, with
`pos` at that read (R303, R304). -/
theorem readOperands_short (a : Nat) (b : Byte) {n : Nat} (i : Nat) {s : State}
    (h : (s.input.bytesFrom s.pos n).length < n) :
    readOperands a b n i s = .error (match s.input.endMark with
        | .endOfStream => .truncatedInstruction a b (i + (s.input.bytesFrom s.pos n).length)
        | .ioError => .ioError a,
      { s with pos := s.pos + (s.input.bytesFrom s.pos n).length }) := by
  induction n generalizing i s with
  | zero => simp at h
  | succ n ih =>
    rcases nextByte_cases s with ⟨v, hv, hn⟩ | ⟨hv, he, hn⟩ | ⟨hv, he, hn⟩
    · simp only [Input.bytesFrom, hv, List.length_cons, Nat.add_lt_add_iff_right] at h
      simp only [readOperands, hn, ih (s := s.advance) (i + 1) h, Input.bytesFrom, hv]
      simp [State.advance, Nat.add_assoc, Nat.add_comm 1]
    · simp [readOperands, hn, Input.bytesFrom, hv, he]
    · simp [readOperands, hn, Input.bytesFrom, hv, he]

/-! ## decode -/

theorem decode_cons_ok {b : Byte} {rest : List Byte} (h : oplen (classify b).shape ≤ rest.length) :
    decode (b :: rest) = .ok (assemble b (rest.take (oplen (classify b).shape)),
      rest.drop (oplen (classify b).shape)) := by simp [decode, h]

theorem oplen_le (k : Shape) : oplen k ≤ 2 := by cases k <;> simp [oplen]

/-! ## fetch -/

/-- Everything the first half of a step can do (R141, R307), in status RUNNING or not. -/
theorem fetch_cases (s : State) :
    (s.input.read s.pos = none ∧ s.input.endMark = .endOfStream ∧ fetch s = .endOfRun) ∨
    (s.input.read s.pos = none ∧ s.input.endMark = .ioError ∧ fetch s = .raised (.ioError s.pos) s) ∨
    (∃ b, s.input.read s.pos = some b ∧
      ((Config.maxRenderAddr < s.pos ∧ fetch s = .refused (.addressNotRenderable s.pos)) ∨
       (s.pos ≤ Config.maxRenderAddr ∧
        ∃ ops, ops = s.input.bytesFrom (s.pos + 1) (oplen (classify b).shape) ∧
          ((ops.length = oplen (classify b).shape ∧ fetch s = .instr (assemble b ops)) ∨
           (ops.length < oplen (classify b).shape ∧ s.input.endMark = .endOfStream ∧
              fetch s = .raised (.truncatedInstruction s.pos b ops.length) { s with pos := s.pos + 1 + ops.length }) ∨
           (ops.length < oplen (classify b).shape ∧ s.input.endMark = .ioError ∧
              fetch s = .raised (.ioError s.pos) { s with pos := s.pos + 1 + ops.length }))))) := by
  rcases nextByte_cases s with ⟨b, hb, hn⟩ | ⟨hb, he, hn⟩ | ⟨hb, he, hn⟩
  · refine .inr (.inr ⟨b, hb, ?_⟩)
    by_cases ha : s.pos ≤ Config.maxRenderAddr
    · refine .inr ⟨ha, _, rfl, ?_⟩
      have hle := bytesFrom_length_le s.input (s.pos + 1) (oplen (classify b).shape)
      by_cases hl : (s.input.bytesFrom (s.pos + 1) (oplen (classify b).shape)).length = oplen (classify b).shape
      · have hr := readOperands_ok s.pos b 0 (s := s.advance) hl
        refine .inl ⟨hl, ?_⟩
        simp [fetch, hn, ha, hr, decode_cons_ok (Nat.le_of_eq hl.symm), List.take_of_length_le hle]
      · have hlt := Nat.lt_of_le_of_ne hle hl
        have hr := readOperands_short s.pos b 0 (s := s.advance) hlt
        rcases he : s.input.endMark
        · exact .inr (.inl ⟨hlt, rfl, by simp only [fetch, hn, position_eq, if_pos ha, hr]; simp [State.advance, he]⟩)
        · exact .inr (.inr ⟨hlt, rfl, by simp only [fetch, hn, position_eq, if_pos ha, hr]; simp [State.advance, he]⟩)
    · exact .inl ⟨by omega, by simp [fetch, hn, ha]⟩
  · exact .inl ⟨hb, he, by simp [fetch, hn]⟩
  · exact .inr (.inl ⟨hb, he, by simp [fetch, hn]⟩)

/-! ## The listing of one instruction -/

/-- What the listing of an instruction whose text is `l` leaves: the bytes consumed, one line more (R143). -/
theorem listInstr_next {k : Kind} {b : Byte} {ops : List Byte} {l : String}
    (ha : s.pos ≤ Config.maxRenderAddr) (hl : format ⟨s.pos, b, k, ops⟩ = some l) :
    listInstr k b ops s = .next { s with
      pos := s.pos + (1 + oplen k.shape)
      cur := none
      out := s.out ++ [l]
      diag := if k.shape = .unknown then s.diag ++ [diagLine b] else s.diag } := by
  simp only [listInstr, position_eq, if_pos ha, emitCurrent, latch_cur, Option.bind_some, hl, State.logUnknown]
  split_ifs <;> simp [State.emit, State.endStep, State.latch, State.log]

theorem listInstr_refused {k : Kind} {b : Byte} {ops : List Byte} (ha : Config.maxRenderAddr < s.pos) :
    listInstr k b ops s = .refused (.addressNotRenderable s.pos) := by
  simp [listInstr, Nat.not_le.2 ha]

/-! ## step -/

theorem step_running (h : s.status = .running) : step s = runStep s := by
  simp [step, driverStep, stopFault, h]

theorem step_terminal (h : s.status ≠ .running) : ∃ f, stopFault s.status = some f ∧ step s = .fault f := by
  rcases hs : s.status <;> simp_all [step, driverStep, stopFault]

/-! ## The canonical form under the load of a stream -/

theorem boot_wf (bs : List Byte) (e : EndMarker) : Memory.wf (boot (streamOf bs e)).input.cells = true :=
  streamOf_wf bs e

theorem reset_wf : Memory.wf State.reset.input.cells = true := rfl

theorem storeAtPos_wf (h : Memory.wf s.input.cells = true) (hp : s.pos ≤ s.input.length) (bs : List Byte) :
    Memory.wf (s.storeAtPos bs).input.cells = true := Memory.writeBytes_wf h bs hp

/-- The bytes of a table word stand where the next step fetches. -/
theorem withFetchWord_bytesFrom (nbits w : Nat) :
    (s.withFetchWord nbits w).input.bytesFrom s.pos 3 = tableBytes nbits w :=
  bytesFrom_writeBytes s.input.cells s.pos (tableBytes nbits w) s.input.endMark

end Sys2Proof.Machine
end

