-- ==== Sys2Proof/Laws/Exec.lean ====
section
/-! SUPPORT. What every meaning is: the listing of the kind the classifier gives the instruction's own opcode byte, with
the instruction's own operand bytes. Proofs about `exec` cite this and unfold no meaning. -/

namespace Sys2Proof.Machine

theorem exec_eq_listInstr {i : Instr} (h : wellFormed i = true) (s : State) :
    exec i s = listInstr (classify ((encode i).headD 0)) ((encode i).headD 0) (encode i).tail s := by
  cases i
  case lxi p v => exact congrArg (listInstr · _ _ s) (classify_lxi p).symm
  case stax p => exact congrArg (listInstr · _ _ s) (classify_stax p).symm
  case ldax p => exact congrArg (listInstr · _ _ s) (classify_ldax p).symm
  case inx p => exact congrArg (listInstr · _ _ s) (classify_inx p).symm
  case dcx p => exact congrArg (listInstr · _ _ s) (classify_dcx p).symm
  case dad p => exact congrArg (listInstr · _ _ s) (classify_dad p).symm
  case inr r => exact congrArg (listInstr · _ _ s) (classify_inr r).symm
  case dcr r => exact congrArg (listInstr · _ _ s) (classify_dcr r).symm
  case mvi r v => exact congrArg (listInstr · _ _ s) (classify_mvi r).symm
  case mov d r => exact congrArg (listInstr · _ _ s) (classify_mov d r h).symm
  case add r => exact congrArg (listInstr · _ _ s) (classify_add r).symm
  case adc r => exact congrArg (listInstr · _ _ s) (classify_adc r).symm
  case sub r => exact congrArg (listInstr · _ _ s) (classify_sub r).symm
  case sbb r => exact congrArg (listInstr · _ _ s) (classify_sbb r).symm
  case ana r => exact congrArg (listInstr · _ _ s) (classify_ana r).symm
  case xra r => exact congrArg (listInstr · _ _ s) (classify_xra r).symm
  case ora r => exact congrArg (listInstr · _ _ s) (classify_ora r).symm
  case cmp r => exact congrArg (listInstr · _ _ s) (classify_cmp r).symm
  case pop p => exact congrArg (listInstr · _ _ s) (classify_pop p).symm
  case push p => exact congrArg (listInstr · _ _ s) (classify_push p).symm
  case rst n => exact congrArg (listInstr · _ _ s) (classify_rst n).symm
  case unknown raw => exact congrArg (listInstr · _ _ s) (classify_unknown raw h).symm
  case nop => exact congrArg (listInstr · _ _ s) classify_nop.symm
  case hlt => exact congrArg (listInstr · _ _ s) classify_hlt.symm
  case rlc => exact congrArg (listInstr · _ _ s) classify_rlc.symm
  case rrc => exact congrArg (listInstr · _ _ s) classify_rrc.symm
  case ral => exact congrArg (listInstr · _ _ s) classify_ral.symm
  case rar => exact congrArg (listInstr · _ _ s) classify_rar.symm
  case daa => exact congrArg (listInstr · _ _ s) classify_daa.symm
  case cma => exact congrArg (listInstr · _ _ s) classify_cma.symm
  case stc => exact congrArg (listInstr · _ _ s) classify_stc.symm
  case cmc => exact congrArg (listInstr · _ _ s) classify_cmc.symm
  case xchg => exact congrArg (listInstr · _ _ s) classify_xchg.symm
  case xthl => exact congrArg (listInstr · _ _ s) classify_xthl.symm
  case pchl => exact congrArg (listInstr · _ _ s) classify_pchl.symm
  case sphl => exact congrArg (listInstr · _ _ s) classify_sphl.symm
  case di => exact congrArg (listInstr · _ _ s) classify_di.symm
  case ei => exact congrArg (listInstr · _ _ s) classify_ei.symm
  case adi v => exact congrArg (listInstr · _ _ s) classify_adi.symm
  case aci v => exact congrArg (listInstr · _ _ s) classify_aci.symm
  case sui v => exact congrArg (listInstr · _ _ s) classify_sui.symm
  case sbi v => exact congrArg (listInstr · _ _ s) classify_sbi.symm
  case ani v => exact congrArg (listInstr · _ _ s) classify_ani.symm
  case xri v => exact congrArg (listInstr · _ _ s) classify_xri.symm
  case ori v => exact congrArg (listInstr · _ _ s) classify_ori.symm
  case cpi v => exact congrArg (listInstr · _ _ s) classify_cpi.symm
  case inp v => exact congrArg (listInstr · _ _ s) classify_inp.symm
  case out v => exact congrArg (listInstr · _ _ s) classify_out.symm
  case lda addr => exact congrArg (listInstr · _ _ s) classify_lda.symm
  case sta addr => exact congrArg (listInstr · _ _ s) classify_sta.symm
  case lhld addr => exact congrArg (listInstr · _ _ s) classify_lhld.symm
  case shld addr => exact congrArg (listInstr · _ _ s) classify_shld.symm
  case jmp addr => exact congrArg (listInstr · _ _ s) classify_jmp.symm
  case jnz addr => exact congrArg (listInstr · _ _ s) classify_jnz.symm
  case jz addr => exact congrArg (listInstr · _ _ s) classify_jz.symm
  case jnc addr => exact congrArg (listInstr · _ _ s) classify_jnc.symm
  case jc addr => exact congrArg (listInstr · _ _ s) classify_jc.symm
  case jpo addr => exact congrArg (listInstr · _ _ s) classify_jpo.symm
  case jpe addr => exact congrArg (listInstr · _ _ s) classify_jpe.symm
  case jp addr => exact congrArg (listInstr · _ _ s) classify_jp.symm
  case jm addr => exact congrArg (listInstr · _ _ s) classify_jm.symm
  case call addr => exact congrArg (listInstr · _ _ s) classify_call.symm
  case cnz addr => exact congrArg (listInstr · _ _ s) classify_cnz.symm
  case cz addr => exact congrArg (listInstr · _ _ s) classify_cz.symm
  case cnc addr => exact congrArg (listInstr · _ _ s) classify_cnc.symm
  case cc addr => exact congrArg (listInstr · _ _ s) classify_cc.symm
  case cpo addr => exact congrArg (listInstr · _ _ s) classify_cpo.symm
  case cpe addr => exact congrArg (listInstr · _ _ s) classify_cpe.symm
  case cp addr => exact congrArg (listInstr · _ _ s) classify_cp.symm
  case cm addr => exact congrArg (listInstr · _ _ s) classify_cm.symm
  case ret => exact congrArg (listInstr · _ _ s) classify_ret.symm
  case rnz => exact congrArg (listInstr · _ _ s) classify_rnz.symm
  case rz => exact congrArg (listInstr · _ _ s) classify_rz.symm
  case rnc => exact congrArg (listInstr · _ _ s) classify_rnc.symm
  case rc => exact congrArg (listInstr · _ _ s) classify_rc.symm
  case rpo => exact congrArg (listInstr · _ _ s) classify_rpo.symm
  case rpe => exact congrArg (listInstr · _ _ s) classify_rpe.symm
  case rp => exact congrArg (listInstr · _ _ s) classify_rp.symm
  case rm => exact congrArg (listInstr · _ _ s) classify_rm.symm

end Sys2Proof.Machine
end

