-- ==== Sys2Proof/Laws/PerInstr.lean ====
section
/-! SUPPORT. Statements made per instruction (LAWS.json). `EncodedLength`: a well-formed instruction is encoded as one
opcode byte followed by exactly the operand bytes the opcode's shape asks for (R26, R80, R90). -/

namespace Sys2Proof.Laws

/-- The encoding of `i` has an opcode byte, and `oplen` of its shape operand bytes after it. -/
def EncodedLength.Statement (i : Instr) : Prop :=
  wellFormed i = true → ∃ b ops, encode i = b :: ops ∧ ops.length = oplen (classify b).shape

theorem EncodedLength.nop : EncodedLength.Statement (.nop) :=
  fun _ => ⟨_, _, rfl, by rw [classify_nop]; rfl⟩

theorem EncodedLength.hlt : EncodedLength.Statement (.hlt) :=
  fun _ => ⟨_, _, rfl, by rw [classify_hlt]; rfl⟩

theorem EncodedLength.rlc : EncodedLength.Statement (.rlc) :=
  fun _ => ⟨_, _, rfl, by rw [classify_rlc]; rfl⟩

theorem EncodedLength.rrc : EncodedLength.Statement (.rrc) :=
  fun _ => ⟨_, _, rfl, by rw [classify_rrc]; rfl⟩

theorem EncodedLength.ral : EncodedLength.Statement (.ral) :=
  fun _ => ⟨_, _, rfl, by rw [classify_ral]; rfl⟩

theorem EncodedLength.rar : EncodedLength.Statement (.rar) :=
  fun _ => ⟨_, _, rfl, by rw [classify_rar]; rfl⟩

theorem EncodedLength.daa : EncodedLength.Statement (.daa) :=
  fun _ => ⟨_, _, rfl, by rw [classify_daa]; rfl⟩

theorem EncodedLength.cma : EncodedLength.Statement (.cma) :=
  fun _ => ⟨_, _, rfl, by rw [classify_cma]; rfl⟩

theorem EncodedLength.stc : EncodedLength.Statement (.stc) :=
  fun _ => ⟨_, _, rfl, by rw [classify_stc]; rfl⟩

theorem EncodedLength.cmc : EncodedLength.Statement (.cmc) :=
  fun _ => ⟨_, _, rfl, by rw [classify_cmc]; rfl⟩

theorem EncodedLength.xchg : EncodedLength.Statement (.xchg) :=
  fun _ => ⟨_, _, rfl, by rw [classify_xchg]; rfl⟩

theorem EncodedLength.xthl : EncodedLength.Statement (.xthl) :=
  fun _ => ⟨_, _, rfl, by rw [classify_xthl]; rfl⟩

theorem EncodedLength.pchl : EncodedLength.Statement (.pchl) :=
  fun _ => ⟨_, _, rfl, by rw [classify_pchl]; rfl⟩

theorem EncodedLength.sphl : EncodedLength.Statement (.sphl) :=
  fun _ => ⟨_, _, rfl, by rw [classify_sphl]; rfl⟩

theorem EncodedLength.di : EncodedLength.Statement (.di) :=
  fun _ => ⟨_, _, rfl, by rw [classify_di]; rfl⟩

theorem EncodedLength.ei : EncodedLength.Statement (.ei) :=
  fun _ => ⟨_, _, rfl, by rw [classify_ei]; rfl⟩

theorem EncodedLength.lxi (p : BitVec 2) (v : Word) : EncodedLength.Statement (.lxi p v) :=
  fun _ => ⟨_, _, rfl, by rw [classify_lxi p]; rfl⟩

theorem EncodedLength.stax (p : BitVec 1) : EncodedLength.Statement (.stax p) :=
  fun _ => ⟨_, _, rfl, by rw [classify_stax p]; rfl⟩

theorem EncodedLength.ldax (p : BitVec 1) : EncodedLength.Statement (.ldax p) :=
  fun _ => ⟨_, _, rfl, by rw [classify_ldax p]; rfl⟩

theorem EncodedLength.inx (p : BitVec 2) : EncodedLength.Statement (.inx p) :=
  fun _ => ⟨_, _, rfl, by rw [classify_inx p]; rfl⟩

theorem EncodedLength.dcx (p : BitVec 2) : EncodedLength.Statement (.dcx p) :=
  fun _ => ⟨_, _, rfl, by rw [classify_dcx p]; rfl⟩

theorem EncodedLength.dad (p : BitVec 2) : EncodedLength.Statement (.dad p) :=
  fun _ => ⟨_, _, rfl, by rw [classify_dad p]; rfl⟩

theorem EncodedLength.pop (p : BitVec 2) : EncodedLength.Statement (.pop p) :=
  fun _ => ⟨_, _, rfl, by rw [classify_pop p]; rfl⟩

theorem EncodedLength.push (p : BitVec 2) : EncodedLength.Statement (.push p) :=
  fun _ => ⟨_, _, rfl, by rw [classify_push p]; rfl⟩

theorem EncodedLength.inr (r : BitVec 3) : EncodedLength.Statement (.inr r) :=
  fun _ => ⟨_, _, rfl, by rw [classify_inr r]; rfl⟩

theorem EncodedLength.dcr (r : BitVec 3) : EncodedLength.Statement (.dcr r) :=
  fun _ => ⟨_, _, rfl, by rw [classify_dcr r]; rfl⟩

theorem EncodedLength.mvi (r : BitVec 3) (v : Byte) : EncodedLength.Statement (.mvi r v) :=
  fun _ => ⟨_, _, rfl, by rw [classify_mvi r]; rfl⟩

theorem EncodedLength.mov (d s : BitVec 3) : EncodedLength.Statement (.mov d s) :=
  fun h => ⟨_, _, rfl, by rw [classify_mov d s h]; rfl⟩

theorem EncodedLength.add (r : BitVec 3) : EncodedLength.Statement (.add r) :=
  fun _ => ⟨_, _, rfl, by rw [classify_add r]; rfl⟩

theorem EncodedLength.adc (r : BitVec 3) : EncodedLength.Statement (.adc r) :=
  fun _ => ⟨_, _, rfl, by rw [classify_adc r]; rfl⟩

theorem EncodedLength.sub (r : BitVec 3) : EncodedLength.Statement (.sub r) :=
  fun _ => ⟨_, _, rfl, by rw [classify_sub r]; rfl⟩

theorem EncodedLength.sbb (r : BitVec 3) : EncodedLength.Statement (.sbb r) :=
  fun _ => ⟨_, _, rfl, by rw [classify_sbb r]; rfl⟩

theorem EncodedLength.ana (r : BitVec 3) : EncodedLength.Statement (.ana r) :=
  fun _ => ⟨_, _, rfl, by rw [classify_ana r]; rfl⟩

theorem EncodedLength.xra (r : BitVec 3) : EncodedLength.Statement (.xra r) :=
  fun _ => ⟨_, _, rfl, by rw [classify_xra r]; rfl⟩

theorem EncodedLength.ora (r : BitVec 3) : EncodedLength.Statement (.ora r) :=
  fun _ => ⟨_, _, rfl, by rw [classify_ora r]; rfl⟩

theorem EncodedLength.cmp (r : BitVec 3) : EncodedLength.Statement (.cmp r) :=
  fun _ => ⟨_, _, rfl, by rw [classify_cmp r]; rfl⟩

theorem EncodedLength.adi (v : Byte) : EncodedLength.Statement (.adi v) :=
  fun _ => ⟨_, _, rfl, by rw [classify_adi]; rfl⟩

theorem EncodedLength.aci (v : Byte) : EncodedLength.Statement (.aci v) :=
  fun _ => ⟨_, _, rfl, by rw [classify_aci]; rfl⟩

theorem EncodedLength.sui (v : Byte) : EncodedLength.Statement (.sui v) :=
  fun _ => ⟨_, _, rfl, by rw [classify_sui]; rfl⟩

theorem EncodedLength.sbi (v : Byte) : EncodedLength.Statement (.sbi v) :=
  fun _ => ⟨_, _, rfl, by rw [classify_sbi]; rfl⟩

theorem EncodedLength.ani (v : Byte) : EncodedLength.Statement (.ani v) :=
  fun _ => ⟨_, _, rfl, by rw [classify_ani]; rfl⟩

theorem EncodedLength.xri (v : Byte) : EncodedLength.Statement (.xri v) :=
  fun _ => ⟨_, _, rfl, by rw [classify_xri]; rfl⟩

theorem EncodedLength.ori (v : Byte) : EncodedLength.Statement (.ori v) :=
  fun _ => ⟨_, _, rfl, by rw [classify_ori]; rfl⟩

theorem EncodedLength.cpi (v : Byte) : EncodedLength.Statement (.cpi v) :=
  fun _ => ⟨_, _, rfl, by rw [classify_cpi]; rfl⟩

theorem EncodedLength.inp (v : Byte) : EncodedLength.Statement (.inp v) :=
  fun _ => ⟨_, _, rfl, by rw [classify_inp]; rfl⟩

theorem EncodedLength.out (v : Byte) : EncodedLength.Statement (.out v) :=
  fun _ => ⟨_, _, rfl, by rw [classify_out]; rfl⟩

theorem EncodedLength.lda (addr : Word) : EncodedLength.Statement (.lda addr) :=
  fun _ => ⟨_, _, rfl, by rw [classify_lda]; rfl⟩

theorem EncodedLength.sta (addr : Word) : EncodedLength.Statement (.sta addr) :=
  fun _ => ⟨_, _, rfl, by rw [classify_sta]; rfl⟩

theorem EncodedLength.lhld (addr : Word) : EncodedLength.Statement (.lhld addr) :=
  fun _ => ⟨_, _, rfl, by rw [classify_lhld]; rfl⟩

theorem EncodedLength.shld (addr : Word) : EncodedLength.Statement (.shld addr) :=
  fun _ => ⟨_, _, rfl, by rw [classify_shld]; rfl⟩

theorem EncodedLength.jmp (addr : Word) : EncodedLength.Statement (.jmp addr) :=
  fun _ => ⟨_, _, rfl, by rw [classify_jmp]; rfl⟩

theorem EncodedLength.jnz (addr : Word) : EncodedLength.Statement (.jnz addr) :=
  fun _ => ⟨_, _, rfl, by rw [classify_jnz]; rfl⟩

theorem EncodedLength.jz (addr : Word) : EncodedLength.Statement (.jz addr) :=
  fun _ => ⟨_, _, rfl, by rw [classify_jz]; rfl⟩

theorem EncodedLength.jnc (addr : Word) : EncodedLength.Statement (.jnc addr) :=
  fun _ => ⟨_, _, rfl, by rw [classify_jnc]; rfl⟩

theorem EncodedLength.jc (addr : Word) : EncodedLength.Statement (.jc addr) :=
  fun _ => ⟨_, _, rfl, by rw [classify_jc]; rfl⟩

theorem EncodedLength.jpo (addr : Word) : EncodedLength.Statement (.jpo addr) :=
  fun _ => ⟨_, _, rfl, by rw [classify_jpo]; rfl⟩

theorem EncodedLength.jpe (addr : Word) : EncodedLength.Statement (.jpe addr) :=
  fun _ => ⟨_, _, rfl, by rw [classify_jpe]; rfl⟩

theorem EncodedLength.jp (addr : Word) : EncodedLength.Statement (.jp addr) :=
  fun _ => ⟨_, _, rfl, by rw [classify_jp]; rfl⟩

theorem EncodedLength.jm (addr : Word) : EncodedLength.Statement (.jm addr) :=
  fun _ => ⟨_, _, rfl, by rw [classify_jm]; rfl⟩

theorem EncodedLength.call (addr : Word) : EncodedLength.Statement (.call addr) :=
  fun _ => ⟨_, _, rfl, by rw [classify_call]; rfl⟩

theorem EncodedLength.cnz (addr : Word) : EncodedLength.Statement (.cnz addr) :=
  fun _ => ⟨_, _, rfl, by rw [classify_cnz]; rfl⟩

theorem EncodedLength.cz (addr : Word) : EncodedLength.Statement (.cz addr) :=
  fun _ => ⟨_, _, rfl, by rw [classify_cz]; rfl⟩

theorem EncodedLength.cnc (addr : Word) : EncodedLength.Statement (.cnc addr) :=
  fun _ => ⟨_, _, rfl, by rw [classify_cnc]; rfl⟩

theorem EncodedLength.cc (addr : Word) : EncodedLength.Statement (.cc addr) :=
  fun _ => ⟨_, _, rfl, by rw [classify_cc]; rfl⟩

theorem EncodedLength.cpo (addr : Word) : EncodedLength.Statement (.cpo addr) :=
  fun _ => ⟨_, _, rfl, by rw [classify_cpo]; rfl⟩

theorem EncodedLength.cpe (addr : Word) : EncodedLength.Statement (.cpe addr) :=
  fun _ => ⟨_, _, rfl, by rw [classify_cpe]; rfl⟩

theorem EncodedLength.cp (addr : Word) : EncodedLength.Statement (.cp addr) :=
  fun _ => ⟨_, _, rfl, by rw [classify_cp]; rfl⟩

theorem EncodedLength.cm (addr : Word) : EncodedLength.Statement (.cm addr) :=
  fun _ => ⟨_, _, rfl, by rw [classify_cm]; rfl⟩

theorem EncodedLength.ret : EncodedLength.Statement (.ret) :=
  fun _ => ⟨_, _, rfl, by rw [classify_ret]; rfl⟩

theorem EncodedLength.rnz : EncodedLength.Statement (.rnz) :=
  fun _ => ⟨_, _, rfl, by rw [classify_rnz]; rfl⟩

theorem EncodedLength.rz : EncodedLength.Statement (.rz) :=
  fun _ => ⟨_, _, rfl, by rw [classify_rz]; rfl⟩

theorem EncodedLength.rnc : EncodedLength.Statement (.rnc) :=
  fun _ => ⟨_, _, rfl, by rw [classify_rnc]; rfl⟩

theorem EncodedLength.rc : EncodedLength.Statement (.rc) :=
  fun _ => ⟨_, _, rfl, by rw [classify_rc]; rfl⟩

theorem EncodedLength.rpo : EncodedLength.Statement (.rpo) :=
  fun _ => ⟨_, _, rfl, by rw [classify_rpo]; rfl⟩

theorem EncodedLength.rpe : EncodedLength.Statement (.rpe) :=
  fun _ => ⟨_, _, rfl, by rw [classify_rpe]; rfl⟩

theorem EncodedLength.rp : EncodedLength.Statement (.rp) :=
  fun _ => ⟨_, _, rfl, by rw [classify_rp]; rfl⟩

theorem EncodedLength.rm : EncodedLength.Statement (.rm) :=
  fun _ => ⟨_, _, rfl, by rw [classify_rm]; rfl⟩

theorem EncodedLength.rst (n : BitVec 3) : EncodedLength.Statement (.rst n) :=
  fun _ => ⟨_, _, rfl, by rw [classify_rst n]; rfl⟩

theorem EncodedLength.unknown (raw : Byte) : EncodedLength.Statement (.unknown raw) :=
  fun h => ⟨_, _, rfl, by rw [classify_unknown raw h]; rfl⟩

end Sys2Proof.Laws
end

