-- ==== Sys2Proof/Laws/Text.lean ====
section
/-! SUPPORT. Laws of the text primitives and of the line layout. -/

namespace Sys2Proof.Machine

@[simp] theorem hex2_toList (v : Nat) : (hex2 v).toList = [hexDigit (v / 16 % 16), hexDigit (v % 16)] := by
  simp [hex2]

@[simp] theorem hex4_toList (v : Nat) :
    (hex4 v).toList = [hexDigit (v / 4096 % 16), hexDigit (v / 256 % 16), hexDigit (v / 16 % 16), hexDigit (v % 16)] := by
  simp [hex4]

@[simp] theorem dec1_toList (v : Nat) : (dec1 v).toList = [Char.ofNat (48 + v)] := by simp [dec1]

@[simp] theorem padr_toList (s : String) (n : Nat) :
    (padr s n).toList = s.toList ++ List.replicate (n - s.length) ' ' := by simp [padr]

@[simp] theorem hex2_length (v : Nat) : (hex2 v).length = 2 := by simp [← String.length_toList]

@[simp] theorem hex4_length (v : Nat) : (hex4 v).length = 4 := by simp [← String.length_toList]

/-- Padding never truncates (R9). -/
theorem padr_length (s : String) (n : Nat) : (padr s n).length = max s.length n := by
  simp only [← String.length_toList, padr_toList, List.length_append, List.length_replicate]; omega

/-- A line without operand text: nothing after the mnemonic (R111). -/
@[simp] theorem lineText_empty (a : Nat) (m : String) : lineText a m "" = hex4 a ++ " " ++ m ++ "\n" := by
  simp [lineText]

/-- A line with operand text (R111). -/
theorem lineText_operand {a : Nat} {m t : String} (h : t ≠ "") :
    lineText a m t = hex4 a ++ " " ++ padr m Config.mnemonicWidth ++ " " ++ t ++ "\n" := by
  simp [lineText, h]

end Sys2Proof.Machine
end

