-- ==== Sys2Proof/Tests/Slice0.lean ====
section
/-! SUPPORT. The model's own tests: the well-formedness check, words written out bit by bit from the encodings of the spec,
one step per instruction with the line of `spec/95_test_vectors.md`, the ends of a run, and a witness for the hypotheses of
every obligation that has some. -/

namespace Sys2Proof.Tests

open Sys2Proof.Machine Sys2Proof.Spec

/-- The run right after reset on the stream `bs`, ended by EndOfStream. -/
def booted (bs : List Byte) : State := boot (streamOf bs .endOfStream)

/-- The run right after reset on the stream `bs`, ended by IOError. -/
def bootedIO (bs : List Byte) : State := boot (streamOf bs .ioError)

/-- A running state with `pos = a` in which the bytes `bs` stand at `a` and after. -/
def runningAt (a : Nat) (bs : List Byte) : State :=
  ⟨a, .running, none, ["0000 NOP\n"], ["Invalid opcode 08\n"], ⟨cellsFrom a bs, .endOfStream⟩⟩

/-- What a step leaves: `out`, `diag`, `pos` and `status`. -/
def report (o : Host.Outcome State Fault Refusal) : Option (List String × List String × Nat × Status) :=
  match o with
  | .next t => some (t.out, t.diag, t.pos, t.status)
  | _ => none

/-- The lines of the first step on the stream `bs`. -/
def lineOf (bs : List Byte) : List String :=
  match step (booted bs) with
  | .next t => t.out
  | _ => []

/-- What the decoder reads from the bytes `bs`, if nothing is left over. -/
def decoded (bs : List Byte) : Option Instr :=
  match decode bs with
  | .ok (i, []) => some i
  | _ => none

/-! ## Well-formedness -/

theorem test_mov_m_m_is_ill_formed : wellFormed (.mov 6 6) = false := by decide
theorem test_known_byte_is_no_unknown : wellFormed (.unknown 0x00) = false ∧ wellFormed (.unknown 0x76) = false := by decide
theorem test_mov_with_one_m_is_well_formed : wellFormed (.mov 6 0) = true ∧ wellFormed (.mov 7 6) = true := by decide
theorem test_unknown_bytes_are_well_formed : wellFormed (.unknown 0x08) = true ∧ wellFormed (.unknown 0xFD) = true := by decide

/-! ## Decoding: the words are the rows of the opcode table with the field bits filled in -/

/-- The encodings of `41_no_operand.md`. -/
theorem test_decode_no_operand :
    decoded [0b00000000] = some .nop ∧
    decoded [0b01110110] = some .hlt ∧
    decoded [0b00000111] = some .rlc ∧
    decoded [0b00001111] = some .rrc ∧
    decoded [0b00010111] = some .ral ∧
    decoded [0b00011111] = some .rar ∧
    decoded [0b00100111] = some .daa ∧
    decoded [0b00101111] = some .cma ∧
    decoded [0b00110111] = some .stc ∧
    decoded [0b00111111] = some .cmc ∧
    decoded [0b11101011] = some .xchg ∧
    decoded [0b11100011] = some .xthl ∧
    decoded [0b11101001] = some .pchl ∧
    decoded [0b11111001] = some .sphl ∧
    decoded [0b11110011] = some .di ∧
    decoded [0b11111011] = some .ei := by decide

/-- The encodings of `42_register_pair.md`. -/
theorem test_decode_register_pair :
    decoded [0b00110001, 0x34, 0x12] = some (.lxi 3 0x1234) ∧
    decoded [0b00000010] = some (.stax 0) ∧
    decoded [0b00011010] = some (.ldax 1) ∧
    decoded [0b00100011] = some (.inx 2) ∧
    decoded [0b00011011] = some (.dcx 1) ∧
    decoded [0b00111001] = some (.dad 3) ∧
    decoded [0b11100001] = some (.pop 2) ∧
    decoded [0b11010101] = some (.push 1) := by decide

/-- The encodings of `43_register.md`. -/
theorem test_decode_register :
    decoded [0b00101100] = some (.inr 5) ∧
    decoded [0b00110101] = some (.dcr 6) ∧
    decoded [0b00111110, 0x85] = some (.mvi 7 0x85) ∧
    decoded [0b01110001] = some (.mov 6 1) ∧
    decoded [0b10000110] = some (.add 6) ∧
    decoded [0b10001001] = some (.adc 1) ∧
    decoded [0b10010010] = some (.sub 2) ∧
    decoded [0b10011110] = some (.sbb 6) ∧
    decoded [0b10100001] = some (.ana 1) ∧
    decoded [0b10101010] = some (.xra 2) ∧
    decoded [0b10110110] = some (.ora 6) ∧
    decoded [0b10111001] = some (.cmp 1) := by decide

/-- The encodings of `44_immediate.md`. -/
theorem test_decode_immediate :
    decoded [0b11000110, 0x85] = some (.adi 0x85) ∧
    decoded [0b11001110, 0x85] = some (.aci 0x85) ∧
    decoded [0b11010110, 0x85] = some (.sui 0x85) ∧
    decoded [0b11011110, 0x85] = some (.sbi 0x85) ∧
    decoded [0b11100110, 0x85] = some (.ani 0x85) ∧
    decoded [0b11101110, 0x85] = some (.xri 0x85) ∧
    decoded [0b11110110, 0x85] = some (.ori 0x85) ∧
    decoded [0b11111110, 0x85] = some (.cpi 0x85) ∧
    decoded [0b11011011, 0x85] = some (.inp 0x85) ∧
    decoded [0b11010011, 0x85] = some (.out 0x85) := by decide

/-- The encodings of `45_direct_address.md`. -/
theorem test_decode_direct_address :
    decoded [0b00111010, 0x34, 0x12] = some (.lda 0x1234) ∧
    decoded [0b00110010, 0x34, 0x12] = some (.sta 0x1234) ∧
    decoded [0b00101010, 0x34, 0x12] = some (.lhld 0x1234) ∧
    decoded [0b00100010, 0x34, 0x12] = some (.shld 0x1234) := by decide

/-- The encodings of `46_control_transfer.md`, the jumps. -/
theorem test_decode_jump :
    decoded [0b11000011, 0x34, 0x12] = some (.jmp 0x1234) ∧
    decoded [0b11000010, 0x34, 0x12] = some (.jnz 0x1234) ∧
    decoded [0b11001010, 0x34, 0x12] = some (.jz 0x1234) ∧
    decoded [0b11010010, 0x34, 0x12] = some (.jnc 0x1234) ∧
    decoded [0b11011010, 0x34, 0x12] = some (.jc 0x1234) ∧
    decoded [0b11100010, 0x34, 0x12] = some (.jpo 0x1234) ∧
    decoded [0b11101010, 0x34, 0x12] = some (.jpe 0x1234) ∧
    decoded [0b11110010, 0x34, 0x12] = some (.jp 0x1234) ∧
    decoded [0b11111010, 0x34, 0x12] = some (.jm 0x1234) := by decide

/-- The encodings of `46_control_transfer.md`, the calls. -/
theorem test_decode_call :
    decoded [0b11001101, 0x34, 0x12] = some (.call 0x1234) ∧
    decoded [0b11000100, 0x34, 0x12] = some (.cnz 0x1234) ∧
    decoded [0b11001100, 0x34, 0x12] = some (.cz 0x1234) ∧
    decoded [0b11010100, 0x34, 0x12] = some (.cnc 0x1234) ∧
    decoded [0b11011100, 0x34, 0x12] = some (.cc 0x1234) ∧
    decoded [0b11100100, 0x34, 0x12] = some (.cpo 0x1234) ∧
    decoded [0b11101100, 0x34, 0x12] = some (.cpe 0x1234) ∧
    decoded [0b11110100, 0x34, 0x12] = some (.cp 0x1234) ∧
    decoded [0b11111100, 0x34, 0x12] = some (.cm 0x1234) := by decide

/-- The encodings of `46_control_transfer.md`, the returns and RST. -/
theorem test_decode_return_and_restart :
    decoded [0b11001001] = some .ret ∧
    decoded [0b11000000] = some .rnz ∧
    decoded [0b11001000] = some .rz ∧
    decoded [0b11010000] = some .rnc ∧
    decoded [0b11011000] = some .rc ∧
    decoded [0b11100000] = some .rpo ∧
    decoded [0b11101000] = some .rpe ∧
    decoded [0b11110000] = some .rp ∧
    decoded [0b11111000] = some .rm ∧
    decoded [0b11110111] = some (.rst 6) := by decide

/-- The encodings of `47_unknown.md`. -/
theorem test_decode_unknown :
    decoded [0b00001000] = some (.unknown 0x08) ∧
    decoded [0b00010000] = some (.unknown 0x10) ∧
    decoded [0b00011000] = some (.unknown 0x18) ∧
    decoded [0b00100000] = some (.unknown 0x20) ∧
    decoded [0b00101000] = some (.unknown 0x28) ∧
    decoded [0b00110000] = some (.unknown 0x30) ∧
    decoded [0b00111000] = some (.unknown 0x38) ∧
    decoded [0b11001011] = some (.unknown 0xCB) ∧
    decoded [0b11011001] = some (.unknown 0xD9) ∧
    decoded [0b11011101] = some (.unknown 0xDD) ∧
    decoded [0b11101101] = some (.unknown 0xED) ∧
    decoded [0b11111101] = some (.unknown 0xFD) := by decide

/-- `decodeTableWord` numbers the bits of the second and third byte after the first byte's. -/
theorem test_decode_table_word :
    decodeTableWord 24 0x123421 = some (.lxi 2 0x1234) ∧ decodeTableWord 8 0xC3 = some (.jmp 0) ∧
    decodeTableWord 8 0x123476 = some .hlt := by decide

/-- The names of the conditions spell the conditional mnemonics (R35, R259). -/
theorem test_conditional_mnemonics :
    conditionalMnemonic "J" 0xC2 = some (classify 0xC2).mnemonic ∧ conditionalMnemonic "R" 0xF8 = some (classify 0xF8).mnemonic ∧
    conditionalMnemonic "C" 0xDC = some (classify 0xDC).mnemonic ∧ conditionalMnemonic "C" 0xE4 = some "CPO" := by decide

/-! ## One step per instruction -/

/-- The lines of `spec/95_test_vectors.md` for `41_no_operand.md`. -/
theorem test_line_no_operand :
    lineOf [0x00] = ["0000 NOP\n"] ∧
    lineOf [0x76] = ["0000 HLT\n"] ∧
    lineOf [0x07] = ["0000 RLC\n"] ∧
    lineOf [0x0F] = ["0000 RRC\n"] ∧
    lineOf [0x17] = ["0000 RAL\n"] ∧
    lineOf [0x1F] = ["0000 RAR\n"] ∧
    lineOf [0x27] = ["0000 DAA\n"] ∧
    lineOf [0x2F] = ["0000 CMA\n"] ∧
    lineOf [0x37] = ["0000 STC\n"] ∧
    lineOf [0x3F] = ["0000 CMC\n"] ∧
    lineOf [0xEB] = ["0000 XCHG\n"] ∧
    lineOf [0xE3] = ["0000 XTHL\n"] ∧
    lineOf [0xE9] = ["0000 PCHL\n"] ∧
    lineOf [0xF9] = ["0000 SPHL\n"] ∧
    lineOf [0xF3] = ["0000 DI\n"] ∧
    lineOf [0xFB] = ["0000 EI\n"] := by decide

/-- The lines of `spec/95_test_vectors.md` for `42_register_pair.md`. -/
theorem test_line_register_pair :
    lineOf [0x31, 0x34, 0x12] = ["0000 LXI     SP,#$1234\n"] ∧
    lineOf [0x02] = ["0000 STAX    B\n"] ∧
    lineOf [0x1A] = ["0000 LDAX    D\n"] ∧
    lineOf [0x23] = ["0000 INX     H\n"] ∧
    lineOf [0x1B] = ["0000 DCX     D\n"] ∧
    lineOf [0x39] = ["0000 DAD     SP\n"] ∧
    lineOf [0xE1] = ["0000 POP     H\n"] ∧
    lineOf [0xD5] = ["0000 PUSH    D\n"] := by decide

/-- The lines of `spec/95_test_vectors.md` for `43_register.md`. -/
theorem test_line_register :
    lineOf [0x2C] = ["0000 INR     L\n"] ∧
    lineOf [0x35] = ["0000 DCR     M\n"] ∧
    lineOf [0x3E, 0x34] = ["0000 MVI     A,#$34\n"] ∧
    lineOf [0x71] = ["0000 MOV     M,C\n"] ∧
    lineOf [0x86] = ["0000 ADD     M\n"] ∧
    lineOf [0x89] = ["0000 ADC     C\n"] ∧
    lineOf [0x92] = ["0000 SUB     D\n"] ∧
    lineOf [0x9E] = ["0000 SBB     M\n"] ∧
    lineOf [0xA1] = ["0000 ANA     C\n"] ∧
    lineOf [0xAA] = ["0000 XRA     D\n"] ∧
    lineOf [0xB6] = ["0000 ORA     M\n"] ∧
    lineOf [0xB9] = ["0000 CMP     C\n"] := by decide

/-- The lines of `spec/95_test_vectors.md` for `44_immediate.md`. -/
theorem test_line_immediate :
    lineOf [0xC6, 0x34] = ["0000 ADI     #$34\n"] ∧
    lineOf [0xCE, 0x34] = ["0000 ACI     #$34\n"] ∧
    lineOf [0xD6, 0x34] = ["0000 SUI     #$34\n"] ∧
    lineOf [0xDE, 0x34] = ["0000 SBI     #$34\n"] ∧
    lineOf [0xE6, 0x34] = ["0000 ANI     #$34\n"] ∧
    lineOf [0xEE, 0x34] = ["0000 XRI     #$34\n"] ∧
    lineOf [0xF6, 0x34] = ["0000 ORI     #$34\n"] ∧
    lineOf [0xFE, 0x34] = ["0000 CPI     #$34\n"] ∧
    lineOf [0xDB, 0x34] = ["0000 IN      #$34\n"] ∧
    lineOf [0xD3, 0x34] = ["0000 OUT     #$34\n"] := by decide

/-- The lines of `spec/95_test_vectors.md` for `45_direct_address.md`. -/
theorem test_line_direct_address :
    lineOf [0x3A, 0x34, 0x12] = ["0000 LDA     $1234\n"] ∧
    lineOf [0x32, 0x34, 0x12] = ["0000 STA     $1234\n"] ∧
    lineOf [0x2A, 0x34, 0x12] = ["0000 LHLD    $1234\n"] ∧
    lineOf [0x22, 0x34, 0x12] = ["0000 SHLD    $1234\n"] := by decide

/-- The lines of `spec/95_test_vectors.md` for `46_control_transfer.md`, the jumps. -/
theorem test_line_jump :
    lineOf [0xC3, 0x34, 0x12] = ["0000 JMP     $1234\n"] ∧
    lineOf [0xC2, 0x34, 0x12] = ["0000 JNZ     $1234\n"] ∧
    lineOf [0xCA, 0x34, 0x12] = ["0000 JZ      $1234\n"] ∧
    lineOf [0xD2, 0x34, 0x12] = ["0000 JNC     $1234\n"] ∧
    lineOf [0xDA, 0x34, 0x12] = ["0000 JC      $1234\n"] ∧
    lineOf [0xE2, 0x34, 0x12] = ["0000 JPO     $1234\n"] ∧
    lineOf [0xEA, 0x34, 0x12] = ["0000 JPE     $1234\n"] ∧
    lineOf [0xF2, 0x34, 0x12] = ["0000 JP      $1234\n"] ∧
    lineOf [0xFA, 0x34, 0x12] = ["0000 JM      $1234\n"] := by decide

/-- The lines of `spec/95_test_vectors.md` for `46_control_transfer.md`, the calls. -/
theorem test_line_call :
    lineOf [0xCD, 0x34, 0x12] = ["0000 CALL    $1234\n"] ∧
    lineOf [0xC4, 0x34, 0x12] = ["0000 CNZ     $1234\n"] ∧
    lineOf [0xCC, 0x34, 0x12] = ["0000 CZ      $1234\n"] ∧
    lineOf [0xD4, 0x34, 0x12] = ["0000 CNC     $1234\n"] ∧
    lineOf [0xDC, 0x34, 0x12] = ["0000 CC      $1234\n"] ∧
    lineOf [0xE4, 0x34, 0x12] = ["0000 CPO     $1234\n"] ∧
    lineOf [0xEC, 0x34, 0x12] = ["0000 CPE     $1234\n"] ∧
    lineOf [0xF4, 0x34, 0x12] = ["0000 CP      $1234\n"] ∧
    lineOf [0xFC, 0x34, 0x12] = ["0000 CM      $1234\n"] := by decide

/-- The lines of `spec/95_test_vectors.md` for `46_control_transfer.md`, the returns and RST. -/
theorem test_line_return_and_restart :
    lineOf [0xC9] = ["0000 RET\n"] ∧
    lineOf [0xC0] = ["0000 RNZ\n"] ∧
    lineOf [0xC8] = ["0000 RZ\n"] ∧
    lineOf [0xD0] = ["0000 RNC\n"] ∧
    lineOf [0xD8] = ["0000 RC\n"] ∧
    lineOf [0xE0] = ["0000 RPO\n"] ∧
    lineOf [0xE8] = ["0000 RPE\n"] ∧
    lineOf [0xF0] = ["0000 RP\n"] ∧
    lineOf [0xF8] = ["0000 RM\n"] ∧
    lineOf [0xF7] = ["0000 RST     6\n"] := by decide

/-- The lines of `spec/95_test_vectors.md` for `47_unknown.md`. -/
theorem test_line_unknown :
    lineOf [0x08] = ["0000 UNKNOWN 08\n"] ∧
    lineOf [0xFD] = ["0000 UNKNOWN FD\n"] := by decide

/-! ## Other steps, the ends of a run, and what a step is refused for -/

/-- S5: the byte order is inverted between the stream and the line. -/
theorem test_byte_order_inversion :
    lineOf [0x01, 0x01, 0x02] = ["0000 LXI     B,#$0201\n"] ∧ lineOf [0xC3, 0x01, 0x02] = ["0000 JMP     $0201\n"] := by decide

/-- S6: the pair field 3 is PSW in stack context and SP in arithmetic context. -/
theorem test_pair_context :
    lineOf [0xF1] = ["0000 POP     PSW\n"] ∧ lineOf [0x31, 0x00, 0x00] = ["0000 LXI     SP,#$0000\n"] := by decide

/-- S12: 0x76 is HLT, and M is a name like any other in either slot of MOV. -/
theorem test_mov_and_hlt :
    lineOf [0x77] = ["0000 MOV     M,A\n"] ∧ lineOf [0x7E] = ["0000 MOV     A,M\n"] ∧ lineOf [0x76] = ["0000 HLT\n"] := by decide

/-- S8 and R271: an Unknown byte is one line on each list and an ordinary step. -/
theorem test_unknown_step :
    report (step (booted [0xDD, 0x00])) = some (["0000 UNKNOWN DD\n"], ["Invalid opcode DD\n"], 1, .running) := by decide

/-- R142: the empty stream is DONE at the first step. -/
theorem test_empty_stream_is_done : report (step (booted [])) = some ([], [], 0, .done) := by decide

/-- R304: the stream ends inside an instruction, after the opcode and after the first operand byte. -/
theorem test_truncated_instruction :
    report (step (booted [0x21])) = some ([], [], 1, .abortTruncated) ∧
    report (step (booted [0x21, 0x34])) = some ([], [], 2, .abortTruncated) ∧
    fetch (booted [0x21, 0x34]) = .raised (.truncatedInstruction 0 0x21 1) { booted [0x21, 0x34] with pos := 2 } := by decide

/-- R303: the input fails at the opcode read, at an operand read, and after a whole instruction. -/
theorem test_read_failure :
    report (step (bootedIO [])) = some ([], [], 0, .abortIO) ∧
    report (step (bootedIO [0x3E])) = some ([], [], 1, .abortIO) ∧
    report (step (bootedIO [0x3E, 0x05])) = some (["0000 MVI     A,#$05\n"], [], 2, .running) := by decide

/-- R120: an instruction that starts at 0xFFFF is rendered, operand bytes above it are no reason to refuse. -/
theorem test_last_renderable_address :
    (report (step (runningAt 0xFFFF [0x21, 0x34, 0x12]))).map (·.1) = some ["0000 NOP\n", "FFFF LXI     H,#$1234\n"] := by decide

/-- R309: an opcode at 0x10000 is refused; the end of the stream there is not. -/
theorem test_first_refused_address :
    step (runningAt 0x10000 [0x00]) = .refused (.addressNotRenderable 0x10000) ∧
    report (step (runningAt 0x10000 [])) = some (["0000 NOP\n"], ["Invalid opcode 08\n"], 0x10000, .done) :=
  ⟨rfl, by decide⟩

/-- R23: no step is taken in a terminal status. -/
theorem test_no_step_after_done : step { booted [0x00] with status := .done } = .fault .runDone := rfl

/-- R66: the input is held in RUNNING only. -/
theorem test_input_released : (booted []).holdsInput = true ∧ { booted [] with status := .abortIO }.holdsInput = false := by decide

/-- The word of a table row, stored where the next step fetches, runs from reset. -/
theorem test_fetch_word_runs :
    report (step (State.reset.withFetchWord 8 0xFF)) = some (["0000 RST     7\n"], [], 1, .running) ∧
    report (step (State.reset.withFetchWord 8 0x21)) = some (["0000 LXI     H,#$0000\n"], [], 3, .running) := by decide

/-- Storing bytes in a stream keeps the canonical form and what was there. -/
theorem test_memory_write :
    Memory.writeBytes [(0, 0x11), (1, 0x22)] 1 [0x33, 0x44] = [(0, 0x11), (1, 0x33), (2, 0x44)] ∧
    Memory.wf [(0, 0x11), (2, 0x33)] = false ∧ Memory.wf [(1, 0x33), (0, 0x11)] = false := by decide

/-! ## Witnesses: a state and operands that meet the hypotheses of each obligation that has some -/

/-- A well-formed instruction with every operand bit set. -/
theorem witness_DecodeOfEncodeIsTheInstruction : wellFormed (.lxi 3 0xFFFF) = true := by decide

theorem witness_DecodedBytesAreTheEncoding : decode [0x21, 0x34, 0x12, 0x76] = .ok (.lxi 2 0x1234, [0x76]) := rfl

/-- One byte too few, and exactly enough. -/
theorem witness_DecodeRejectsOnlyMissingBytes :
    [(0x34 : Byte)].length < oplen (classify 0x21).shape ∧ oplen (classify 0x21).shape ≤ [(0x34 : Byte), 0x12].length := by decide

theorem witness_RuleOrderMattersOnlyFor76 :
    rules.reverse.Perm rules ∧ (0x40 : Byte) ≠ 0x76 ∧ exactRules.reverse.Perm exactRules ∧ familyRules.reverse.Perm familyRules :=
  ⟨List.reverse_perm _, by decide, List.reverse_perm _, List.reverse_perm _⟩

theorem witness_FieldsAreInRangeOfTheirTables : [(0x34 : Byte), 0x12].length = oplen (classify 0x31).shape := by decide

/-- The hypothesis of the `…Print…` obligations, at the highest address it admits and at the lowest. -/
theorem witness_Renderable : Renderable (runningAt 0xFFFF []) ∧ Renderable State.reset :=
  ⟨Nat.le_refl _, Nat.zero_le _⟩

theorem witness_MovPrintsDestinationThenSource :
    Renderable (runningAt 0xFFFF []) ∧ ¬((6 : BitVec 3) = 6 ∧ (7 : BitVec 3) = 6) := ⟨Nat.le_refl _, by decide⟩

theorem witness_UnknownOpcodePrintsAndLogs :
    Renderable (runningAt 0xFFFF []) ∧ (0xFD : Byte) ∈ Config.unknownSet := ⟨Nat.le_refl _, by decide⟩

theorem witness_ExecPrintsTheFormattedRecordOfItsBytes :
    wellFormed (.unknown 0xCB) = true ∧ Renderable (runningAt 0xFFFF []) := ⟨by decide, Nat.le_refl _⟩

/-- The clause of the instructions that are not Unknown, and the clause of those that are. -/
theorem witness_ExecFrame :
    exec .hlt State.reset = .next (listed State.reset 1 "HLT") ∧ (∀ b, Instr.hlt ≠ .unknown b) ∧
    exec (.unknown 0xDD) State.reset =
      .next { listed State.reset 1 "UNKNOWN DD" with diag := ["Invalid opcode DD\n"] } :=
  ⟨rfl, nofun, rfl⟩

theorem witness_ExecRefusesExactlyAboveFFFF : 0xFFFF < (runningAt 0x10000 []).pos ∧ (runningAt 0xFFFF []).pos ≤ 0xFFFF := by
  decide

/-- A step that decodes an instruction, at the highest address a step runs at. -/
theorem witness_LineStartsWithTheOpcodeAddress :
    (runningAt 0xFFFF [0x00]).status = .running ∧
    step (runningAt 0xFFFF [0x00]) = .next (listed (runningAt 0xFFFF [0x00]) 1 "NOP") ∧
    (listed (runningAt 0xFFFF [0x00]) 1 "NOP").status = .running := ⟨rfl, rfl, rfl⟩

theorem witness_HexTextDenotesTheNumber : (255 : Nat) < 256 ∧ (65535 : Nat) < 65536 := by decide

/-- The premises of both statements about a printed line. -/
theorem witness_PrintedLines :
    (booted [0x31, 0x34, 0x12]).status = .running ∧
    step (booted [0x31, 0x34, 0x12]) = .next (listed (booted [0x31, 0x34, 0x12]) 3 "LXI     SP,#$1234") ∧
    (listed (booted [0x31, 0x34, 0x12]) 3 "LXI     SP,#$1234").out =
      (booted [0x31, 0x34, 0x12]).out ++ ["0000 LXI     SP,#$1234\n"] := ⟨rfl, rfl, rfl⟩

theorem witness_TwoByteOperandIsStoredLowAndPrintedHighFirst :
    (booted [0xCD, 0xFF, 0x00]).status = .running ∧ Renderable (booted [0xCD, 0xFF, 0x00]) ∧
    (booted [0xCD, 0xFF, 0x00]).input.read 0 = some 0xCD ∧ oplen (classify 0xCD).shape = 2 ∧
    (booted [0xCD, 0xFF, 0x00]).input.read 1 = some 0xFF ∧ (booted [0xCD, 0xFF, 0x00]).input.read 2 = some 0x00 :=
  ⟨rfl, Nat.zero_le _, rfl, rfl, rfl, rfl⟩

theorem witness_StepRunsTheDecodedInstruction :
    (runningAt 0xFFFF [0x3E, 0x05]).status = .running ∧ Renderable (runningAt 0xFFFF [0x3E, 0x05]) ∧
    decode ((runningAt 0xFFFF [0x3E, 0x05]).input.bytesFrom 0xFFFF 3) = .ok (.mvi 7 0x05, []) :=
  ⟨rfl, Nat.le_refl _, rfl⟩

/-- A byte to read, the end of the stream, and a step that met the end. -/
theorem witness_NextByteReadsInOrder :
    (booted [0x00]).input = streamOf [0x00] .endOfStream ∧ (booted [0x00]).pos < [(0x00 : Byte)].length ∧
    (booted []).input = streamOf [] .endOfStream ∧ ([] : List Byte).length ≤ (booted []).pos ∧ (bootedIO []).input = streamOf [] .ioError ∧
    fetch (booted []) = .endOfRun ∧ step (booted []) = .next { booted [] with status := .done } ∧
    fetch (bootedIO []) = .raised (.ioError 0) (bootedIO []) ∧
    step (bootedIO []) = .next { bootedIO [] with status := .abortIO } :=
  ⟨rfl, by decide, rfl, Nat.le_refl _, rfl, rfl, rfl, rfl, rfl⟩

theorem witness_EndOfStreamAtBoundaryEndsDone :
    (runningAt 0x10000 []).status = .running ∧ (runningAt 0x10000 []).input.read 0x10000 = none ∧
    (runningAt 0x10000 []).input.endMark = .endOfStream := ⟨rfl, rfl, rfl⟩

theorem witness_DoneOnlyAtEndOfStream :
    step (booted []) = .next { booted [] with status := .done } ∧ { booted [] with status := .done }.status = .done := ⟨rfl, rfl⟩

/-- The failing opcode read, and the failing read of operand 1. -/
theorem witness_ReadFailureAbortsTheRun :
    (bootedIO []).status = .running ∧ (bootedIO []).input.endMark = .ioError ∧ (bootedIO []).input.read 0 = none ∧
    (bootedIO [0xC3, 0x06]).status = .running ∧ Renderable (bootedIO [0xC3, 0x06]) ∧
    (bootedIO [0xC3, 0x06]).input.read 0 = some 0xC3 ∧ 1 < oplen (classify 0xC3).shape ∧
    (∀ j < 1, ((bootedIO [0xC3, 0x06]).input.read (1 + j)).isSome = true) ∧ (bootedIO [0xC3, 0x06]).input.read 2 = none :=
  ⟨rfl, rfl, rfl, rfl, Nat.zero_le _, rfl, by decide, by decide, rfl⟩

theorem witness_StreamEndInsideInstructionTruncates :
    (booted [0x31, 0x06]).status = .running ∧ (booted [0x31, 0x06]).input.endMark = .endOfStream ∧
    Renderable (booted [0x31, 0x06]) ∧ (booted [0x31, 0x06]).input.read 0 = some 0x31 ∧ 1 < oplen (classify 0x31).shape ∧
    (∀ j < 1, ((booted [0x31, 0x06]).input.read (1 + j)).isSome = true) ∧ (booted [0x31, 0x06]).input.read 2 = none :=
  ⟨rfl, rfl, Nat.zero_le _, rfl, by decide, by decide, rfl⟩

/-- Both sides of the equivalence, at the first address it is about. -/
theorem witness_StepRefusedExactlyAboveFFFF :
    step (runningAt 0x10000 [0xED]) = .refused (.addressNotRenderable 0x10000) ∧
    (runningAt 0x10000 [0xED]).status = .running ∧ ((runningAt 0x10000 [0xED]).input.read 0x10000).isSome = true ∧
    0xFFFF < (runningAt 0x10000 [0xED]).pos := ⟨rfl, rfl, rfl, by decide⟩

/-- Each terminal status, and a step that answers a fault. -/
theorem witness_TerminalStatusIsNeverLeft :
    { booted [] with status := .done }.status = .done ∧ { booted [] with status := .abortIO }.status = .abortIO ∧
    { booted [] with status := .abortTruncated }.status = .abortTruncated ∧
    { booted [] with status := .abortInvariant }.status = .abortInvariant ∧
    step { booted [] with status := .abortIO } = .fault .ioAborted := ⟨rfl, rfl, rfl, rfl, rfl⟩

theorem witness_InvariantViolationIsUnreachable : step (booted [0xFF]) = .next (listed (booted [0xFF]) 1 "RST     7") := rfl

/-- A step that decodes an instruction, and a step that ends the run. -/
theorem witness_StepWritesOneLineOrEndsTheRun :
    (booted [0xFF]).status = .running ∧ step (booted [0xFF]) = .next (listed (booted [0xFF]) 1 "RST     7") ∧
    (booted [0x3E]).status = .running ∧ step (booted [0x3E]) = .next { booted [0x3E] with pos := 1, status := .abortTruncated } :=
  ⟨rfl, rfl, rfl, rfl⟩

theorem witness_UnknownOpcodeIsAnOrdinaryStep :
    (runningAt 0xFFFF [0x38]).status = .running ∧ Renderable (runningAt 0xFFFF [0x38]) ∧
    (runningAt 0xFFFF [0x38]).input.read 0xFFFF = some 0x38 ∧ (classify 0x38).shape = .unknown := ⟨rfl, Nat.le_refl _, rfl, rfl⟩

theorem witness_RunningStepMakesProgress : State.reset.status = .running := rfl

theorem witness_StepDoesNotReadItsOutput :
    step (runningAt 0xFFFF [0x00]) = .next (listed (runningAt 0xFFFF [0x00]) 1 "NOP") := rfl

/-- Another stream with the same byte at the address read, and different ones before and after it. -/
theorem witness_StepReadsOnlyTheBytesItConsumes :
    step { booted [0xAA, 0x00] with pos := 1 } = .next (listed { booted [0xAA, 0x00] with pos := 1 } 1 "NOP") ∧
    (listed { booted [0xAA, 0x00] with pos := 1 } 1 "NOP").status = .running ∧
    (∀ a, 1 ≤ a → a < 2 → (streamOf [0xBB, 0x00, 0xCC] .ioError).read a = (streamOf [0xAA, 0x00] .endOfStream).read a) :=
  ⟨rfl, rfl, fun a h₁ h₂ => by rw [show a = 1 by omega]; rfl⟩

theorem inv_booted (bs : List Byte) : (booted bs).Inv where
  stream    := streamOf_wf bs .endOfStream
  inRange   := Nat.zero_le _
  noRecord  := rfl
  atEnd     := fun h => absurd rfl h
  doneMark  := nofun
  truncMark := nofun
  ioMark    := nofun
  noBug     := nofun

theorem witness_EveryStepKeepsTheInvariant :
    (booted [0xFF]).Inv ∧ step (booted [0xFF]) = .next (listed (booted [0xFF]) 1 "RST     7") := ⟨inv_booted _, rfl⟩

theorem witness_EveryStepKeepsTheListing :
    (booted [0xFF]).Listing ∧ step (booted [0xFF]) = .next (listed (booted [0xFF]) 1 "RST     7") :=
  ⟨⟨[], 0, rfl, nofun, rfl, rfl, fun _ => rfl, Nat.zero_le _, Nat.zero_le _⟩, rfl⟩

theorem witness_EveryRunEnds : (booted [0xFF]).Inv ∧ (booted [0xFF]).status = .running := ⟨inv_booted _, rfl⟩

/-- The longest stream the statement admits. -/
theorem witness_RunOfAStreamIsItsReferenceListing : (List.replicate 0x10000 (0x00 : Byte)).length ≤ 0x10000 := by
  rw [List.length_replicate]

theorem startsRenderable_nops_then_lxi (n a fuel : Nat) (h : a + n ≤ 0xFFFF) :
    StartsRenderable fuel a (List.replicate n 0x00 ++ [0x31, 0x34, 0x12]) := by
  induction n generalizing a fuel with
  | zero =>
    match fuel with
    | 0 => exact trivial
    | 1 => exact ⟨h, trivial⟩
    | fuel + 2 => exact ⟨h, trivial⟩
  | succ n ih =>
    match fuel with
    | 0 => exact trivial
    | fuel + 1 => exact ⟨by omega, ih (a + 1) fuel (by omega)⟩

/-- The longest stream the statement admits, of 65538 bytes: LXI at 0xFFFF, its operand bytes above. -/
theorem witness_RunWithRenderableStartsIsItsReferenceListing :
    (List.replicate 0xFFFF (0x00 : Byte) ++ [0x31, 0x34, 0x12]).length = 65538 ∧
    StartsRenderable 65539 0 (List.replicate 0xFFFF 0x00 ++ [0x31, 0x34, 0x12]) :=
  ⟨by rw [List.length_append, List.length_replicate]; rfl, startsRenderable_nops_then_lxi _ _ _ (Nat.le_refl _)⟩

end Sys2Proof.Tests
end

section
/-! PROOFS. The text of R9 and R10 (`00_scope.md`): the hex digits denote their number, and every line a step appends to
`out` is short and of the character set. -/

namespace Sys2Proof.Machine

open Sys2Proof.Spec

/-! ## Hex text (R9, R115) -/

theorem hexDigit_mem_hexAlphabet : ∀ d < 16, hexDigit d ∈ hexAlphabet := by decide

theorem hexDigitValue_hexDigit : ∀ d < 16, hexDigitValue (hexDigit d) = d := by decide

theorem hexText_hex2 (v : Nat) : HexText 2 (hex2 v) := by
  simp [HexText, hexDigit_mem_hexAlphabet, Nat.mod_lt]

theorem hexText_hex4 (v : Nat) : HexText 4 (hex4 v) := by
  simp [HexText, hexDigit_mem_hexAlphabet, Nat.mod_lt]

theorem readHex_hex2 {v : Nat} (h : v < 256) : readHex (hex2 v) = v := by
  have hd (n : Nat) : hexDigitValue (hexDigit (n % 16)) = n % 16 := hexDigitValue_hexDigit _ (Nat.mod_lt n (by decide))
  simp only [readHex, hex2_toList, List.foldl_cons, List.foldl_nil, hd]
  omega

theorem readHex_hex4 {v : Nat} (h : v < 65536) : readHex (hex4 v) = v := by
  have hd (n : Nat) : hexDigitValue (hexDigit (n % 16)) = n % 16 := hexDigitValue_hexDigit _ (Nat.mod_lt n (by decide))
  simp only [readHex, hex4_toList, List.foldl_cons, List.foldl_nil, hd]
  omega

/-- Settles O29: each digit lies in the alphabet and denotes its base-16 digit of the number. -/
theorem hexTextDenotesTheNumber : Obligations.HexTextDenotesTheNumber :=
  ⟨fun v h => ⟨hexText_hex2 v, readHex_hex2 h⟩, fun v h => ⟨hexText_hex4 v, readHex_hex4 h⟩⟩

/-! ## The instruction a step decodes is well formed (R86, R96) -/

/-- No rule looks at the operand bytes to build a well-formed instruction. -/
theorem wellFormed_build {r : Rule} (hr : r ∈ rules) (b : Byte) (ops : List Byte) :
    wellFormed (r.build b ops) = wellFormed (r.build b []) :=
  have h : rules.map (fun r => wellFormed (r.build b ops)) = rules.map (fun r => wellFormed (r.build b [])) := rfl
  List.map_inj_left.1 h r hr

/-- The rule of HLT stands before that of MOV, and only the bytes of UNKNOWN_SET match no rule (R86, R96). -/
theorem wellFormed_assemble_nil : ∀ b : Byte, wellFormed (assemble b []) = true := by decide

theorem wellFormed_assemble (b : Byte) (ops : List Byte) : wellFormed (assemble b ops) = true := by
  rw [← wellFormed_assemble_nil b, assemble, assemble]
  cases h : rules.find? (·.selects b) with
  | none => rfl
  | some r => exact wellFormed_build (List.mem_of_find?_eq_some h) b ops

/-! ## The line a step appends is the format of a record of the classifier -/

variable {s t : State} {l : String}

/-- A record without a format is the classifier bug of R306: nothing is printed. -/
theorem out_of_listInstr_unformatted {k : Kind} {b : Byte} {ops : List Byte} (hf : format ⟨s.pos, b, k, ops⟩ = none)
    (h : listInstr k b ops s = .next t) : t.out = s.out := by
  simp only [listInstr, position_eq, emitCurrent, latch_cur, Option.bind_some, hf] at h
  split at h
  · cases h
    simp only [raise_out, latch_out, consume_eq, State.logUnknown]
    split <;> rfl
  · cases h

/-- A line that `listInstr` appends is the format of its record. -/
theorem format_of_listInstr_next {k : Kind} {b : Byte} {ops : List Byte} (h : listInstr k b ops s = .next t)
    (hl : t.out = s.out ++ [l]) : format ⟨s.pos, b, k, ops⟩ = some l := by
  by_cases ha : s.pos ≤ Config.maxRenderAddr
  · cases hf : format ⟨s.pos, b, k, ops⟩ with
    | none => exact absurd hl (by simp [out_of_listInstr_unformatted hf h])
    | some l' =>
      rw [listInstr_next ha hf] at h
      cases h
      simpa using hl
  · rw [listInstr_refused (Nat.lt_of_not_le ha)] at h
    cases h

/-- A line that a step appends is the format of a record at `pos` whose kind the classifier gives (R141, R143). -/
theorem format_of_step_next (hs : s.status = .running) (h : step s = .next t) (hl : t.out = s.out ++ [l]) :
    ∃ b ops, format ⟨s.pos, b, classify b, ops⟩ = some l := by
  rw [step_running hs, runStep] at h
  rcases fetch_cases s with ⟨-, -, hf⟩ | ⟨-, -, hf⟩ | ⟨b, -, ⟨-, hf⟩ | ⟨-, ops, -, ⟨-, hf⟩ | ⟨-, -, hf⟩ | ⟨-, -, hf⟩⟩⟩ <;>
    simp only [hf] at h
  case inr.inr.inr.inl =>
    rw [exec_eq_listInstr (wellFormed_assemble b ops)] at h
    exact ⟨_, _, format_of_listInstr_next h hl⟩
  -- Every other step is refused or leaves `out` as it was.
  all_goals cases h <;> simp at hl

/-! ## Text of the character set (R10) -/

/-- The characters of R10 but the line feed. -/
def isLineChar (c : Char) : Bool := c.isUpper || c.isDigit || [' ', '#', '$', ','].contains c

theorem charset_eq : charset = [' ', '#', '$', ','] ++ (List.range 10).map (fun i => Char.ofNat (48 + i)) ++
    (List.range 26).map (fun i => Char.ofNat (65 + i)) ++ ['\n'] := rfl

/-- A character of the code range `a` to `a + n - 1` is in the table of the range. -/
theorem mem_charRange {c : Char} {a n : Nat} (ha : a ≤ c.toNat) (hn : c.toNat < a + n) :
    c ∈ (List.range n).map (fun i => Char.ofNat (a + i)) :=
  List.mem_map.2 ⟨c.toNat - a, List.mem_range.2 (by omega), by rw [Nat.add_sub_cancel' ha, Char.ofNat_toNat]⟩

theorem mem_charset_of_isLineChar {c : Char} (h : isLineChar c = true) : c ∈ charset := by
  rw [isLineChar, Bool.or_eq_true, Bool.or_eq_true, Char.isUpper, Char.isDigit] at h
  simp only [charset_eq, List.mem_append]
  rcases h with (h | h) | h
  · rw [decide_eq_true_eq] at h
    exact .inl (.inr (mem_charRange h.1 (Nat.lt_succ_of_le h.2)))
  · rw [Bool.and_eq_true, decide_eq_true_eq, decide_eq_true_eq] at h
    exact .inl (.inl (.inr (mem_charRange h.1 (Nat.lt_succ_of_le h.2))))
  · exact .inl (.inl (.inl (List.contains_iff_mem.1 h)))

/-- At most `n` characters, each of the character set and none a line feed. -/
def FitsIn (n : Nat) (t : String) : Prop := t.length ≤ n ∧ t.toList.all isLineChar = true

theorem FitsIn.mono {m n : Nat} (h : FitsIn m l) (hmn : m ≤ n) : FitsIn n l := ⟨h.1.trans hmn, h.2⟩

theorem FitsIn.append {m n : Nat} {a b : String} (ha : FitsIn m a) (hb : FitsIn n b) : FitsIn (m + n) (a ++ b) := by
  obtain ⟨ha, ha'⟩ := ha
  obtain ⟨hb, hb'⟩ := hb
  exact ⟨by rw [String.length_append]; omega, by simp [ha', hb']⟩

theorem FitsIn.padr {m : String} {n : Nat} (h : FitsIn n m) : FitsIn n (padr m n) := by
  obtain ⟨hlen, hall⟩ := h
  refine ⟨by rw [padr_length]; omega, ?_⟩
  rw [padr_toList, List.all_append, hall, Bool.true_and]
  exact List.all_eq_true.2 fun c hc => by rw [List.eq_of_mem_replicate hc]; decide

theorem isLineChar_hexDigit : ∀ d < 16, isLineChar (hexDigit d) = true := by decide

theorem fitsIn_hex2 (v : Nat) : FitsIn 2 (hex2 v) := by
  simp [FitsIn, isLineChar_hexDigit, Nat.mod_lt]

theorem fitsIn_hex4 (v : Nat) : FitsIn 4 (hex4 v) := by
  simp [FitsIn, isLineChar_hexDigit, Nat.mod_lt]

/-- Every mnemonic of the rule set, and UNKNOWN, has two to seven characters (R87, R113). -/
theorem mnemonic_bounds (b : Byte) : 2 ≤ (classify b).mnemonic.length ∧ FitsIn 7 (classify b).mnemonic := by
  have hr : ∀ r ∈ rules, 2 ≤ r.mnemonic.length ∧ r.mnemonic.length ≤ 7 ∧
      r.mnemonic.toList.all isLineChar = true := by decide
  have hu : 2 ≤ "UNKNOWN".length ∧ FitsIn 7 "UNKNOWN" := ⟨by decide, by decide, by decide⟩
  rw [classify, classifyWith]
  cases h : rules.find? (·.selects b) with
  | none => exact hu
  | some r => exact hr r (List.mem_of_find?_eq_some h)

theorem fitsIn_REG {i : Nat} (h : REG[i]? = some l) : FitsIn 1 l :=
  have hall : ∀ n ∈ REG, FitsIn 1 n := by unfold FitsIn; decide
  hall l (List.mem_of_getElem? h)

theorem fitsIn_RP_ARITH {i : Nat} (h : RP_ARITH[i]? = some l) : FitsIn 2 l :=
  have hall : ∀ n ∈ RP_ARITH, FitsIn 2 n := by unfold FitsIn; decide
  hall l (List.mem_of_getElem? h)

theorem fitsIn_RP_STACK {i : Nat} (h : RP_STACK[i]? = some l) : FitsIn 3 l :=
  have hall : ∀ n ∈ RP_STACK, FitsIn 3 n := by unfold FitsIn; decide
  hall l (List.mem_of_getElem? h)

theorem fitsIn_dec1 : ∀ n : BitVec 3, FitsIn 1 (dec1 n.toNat) := by unfold FitsIn; decide

theorem fitsIn_imm8Text {ops : List Byte} (h : imm8Text ops = some l) : FitsIn 4 l := by
  unfold imm8Text at h
  split at h
  · cases h
    exact FitsIn.append (m := 2) ⟨by decide, by decide⟩ (fitsIn_hex2 _)
  · cases h

theorem fitsIn_hex16Text {ops : List Byte} (h : hex16Text ops = some l) : FitsIn 4 l := by
  unfold hex16Text at h
  split at h
  · cases h
    exact fitsIn_hex4 _
  · cases h

/-- The longest operand text is that of `LXI SP`: `SP,#$XXXX`. The cases are the shapes in the order of R84. -/
theorem fitsIn_operandText {c : InstrRecord} (h : operandText c = some l) : FitsIn 9 l := by
  have hcomma : FitsIn 1 "," := ⟨by decide, by decide⟩
  have hdollar : FitsIn 1 "$" := ⟨by decide, by decide⟩
  have hmark : FitsIn 3 ",#$" := ⟨by decide, by decide⟩
  unfold operandText at h
  split at h
  case h_1 => cases h; exact ⟨by decide, by decide⟩
  case h_2 | h_3 => exact (fitsIn_REG h).mono (by decide)
  case h_4 =>
    obtain ⟨d, hd, h⟩ := Option.bind_eq_some_iff.1 h
    obtain ⟨r, hr, h⟩ := Option.bind_eq_some_iff.1 h
    cases h
    exact (((fitsIn_REG hd).append hcomma).append (fitsIn_REG hr)).mono (by decide)
  case h_5 | h_6 => exact (fitsIn_RP_ARITH h).mono (by decide)
  case h_7 => exact (fitsIn_RP_STACK h).mono (by decide)
  case h_8 => cases h; exact (fitsIn_dec1 _).mono (by decide)
  case h_9 => exact (fitsIn_imm8Text h).mono (by decide)
  case h_10 =>
    obtain ⟨r, hr, h⟩ := Option.bind_eq_some_iff.1 h
    obtain ⟨v, hv, h⟩ := Option.bind_eq_some_iff.1 h
    cases h
    exact (((fitsIn_REG hr).append hcomma).append (fitsIn_imm8Text hv)).mono (by decide)
  case h_11 =>
    obtain ⟨p, hp, h⟩ := Option.bind_eq_some_iff.1 h
    obtain ⟨v, hv, h⟩ := Option.bind_eq_some_iff.1 h
    cases h
    exact ((fitsIn_RP_ARITH hp).append hmark).append (fitsIn_hex16Text hv)
  case h_12 =>
    obtain ⟨v, hv, h⟩ := Option.bind_eq_some_iff.1 h
    cases h
    exact (hdollar.append (fitsIn_hex16Text hv)).mono (by decide)
  case h_13 => cases h; exact (fitsIn_hex2 _).mono (by decide)
  case h_14 => cases h

/-! ## The line (R111) -/

/-- A line is a body of 7 to 22 characters followed by the line feed, with or without operand text (R111). -/
theorem lineText_body (a : Nat) {m x : String} (hm : 2 ≤ m.length) (hm' : FitsIn 7 m) (hx : FitsIn 9 x) :
    ∃ body, lineText a m x = body ++ "\n" ∧ 7 ≤ body.length ∧ FitsIn 22 body := by
  have hb : FitsIn 1 " " := ⟨by decide, by decide⟩
  by_cases h : x = ""
  · subst h
    refine ⟨_, lineText_empty a m, ?_, (((fitsIn_hex4 a).append hb).append hm').mono (by decide)⟩
    simp only [String.length_append, hex4_length]
    exact Nat.add_le_add_left hm 5
  · refine ⟨_, lineText_operand h, ?_, ((((fitsIn_hex4 a).append hb).append hm'.padr).append hb).append hx⟩
    simp only [String.length_append, hex4_length, padr_length]
    have : Config.mnemonicWidth = 7 := rfl
    omega

theorem FitsIn.count_lineFeed {n : Nat} {body : String} (h : FitsIn n body) : body.toList.count '\n' = 0 :=
  List.count_eq_zero.2 fun hc => absurd (List.all_eq_true.1 h.2 _ hc) (by decide)

theorem lineFeed_mem_charset : '\n' ∈ charset := by simp [charset_eq]

/-- Settles O31: the line is the format of a record of the classifier, so a body whose parts have bounded length and
characters of R10, and then the line feed. -/
theorem printedLinesAreShortAscii : Obligations.PrintedLinesAreShortAscii := by
  intro s t hs h l hl
  obtain ⟨b, ops, hf⟩ := format_of_step_next hs h hl
  obtain ⟨x, hx, rfl⟩ := Option.map_eq_some_iff.1 hf
  obtain ⟨hmin, hm⟩ := mnemonic_bounds b
  obtain ⟨body, hbody, hlen, hfits⟩ := lineText_body s.pos hmin hm (fitsIn_operandText hx)
  rw [hbody]
  refine ⟨?_, ?_, ?_, ?_, ?_⟩
  · rw [String.length_append]; exact Nat.add_le_add_right hlen 1
  · rw [String.length_append]; exact Nat.add_le_add_right hfits.1 1
  · intro c hc
    rw [String.toList_append, List.mem_append] at hc
    rcases hc with hc | hc
    · exact mem_charset_of_isLineChar (List.all_eq_true.1 hfits.2 c hc)
    · rw [List.mem_singleton.1 hc]; exact lineFeed_mem_charset
  · simp
  · simp [hfits.count_lineFeed]

end Sys2Proof.Machine
end

section
/-! PROOFS. The state between steps (`10_state.md`): everything a step can do in terms of the stream and the record it
lists, and from it what every step keeps. -/

namespace Sys2Proof.Machine

/-! ## The bytes of a decoded instruction (R80, R92) -/

/-- No rule looks at the operand bytes to choose the opcode byte. -/
theorem headD_encode_build {r : Rule} (hr : r ∈ rules) (b : Byte) (ops : List Byte) :
    (encode (r.build b ops)).headD 0 = (encode (r.build b [])).headD 0 :=
  have h : rules.map (fun r => (encode (r.build b ops)).headD 0) =
      rules.map (fun r => (encode (r.build b [])).headD 0) := rfl
  List.map_inj_left.1 h r hr

/-- The rule that selects a byte gives its bit fields their places back (R81, R93). -/
theorem headD_encode_assemble_nil : ∀ b : Byte, (encode (assemble b [])).headD 0 = b := by decide

theorem headD_encode_assemble (b : Byte) (ops : List Byte) : (encode (assemble b ops)).headD 0 = b := by
  refine Eq.trans ?_ (headD_encode_assemble_nil b)
  rw [assemble, assemble]
  cases h : rules.find? (·.selects b) with
  | none => rfl
  | some r => exact headD_encode_build (List.mem_of_find?_eq_some h) b ops

/-- The operand bytes an instruction of shape `k` keeps of the list `ops`, as its encoding gives them back. -/
def keptOperands (k : Shape) (ops : List Byte) : List Byte :=
  if oplen k = 0 then []
  else if oplen k = 1 then [imm8 ops]
  else [lowByte (imm16 ops), highByte (imm16 ops)]

/-- A list of exactly the operand bytes is kept whole, low byte first (R60, R90). -/
theorem keptOperands_eq {k : Shape} {ops : List Byte} (h : ops.length = oplen k) : keptOperands k ops = ops := by
  unfold keptOperands
  split_ifs with h0 h1
  · exact (List.length_eq_zero_iff.1 (h.trans h0)).symm
  · obtain ⟨v, rfl⟩ := List.length_eq_one_iff.1 (h.trans h1)
    rfl
  · have hle := oplen_le k
    obtain ⟨lo, hi, rfl⟩ := List.length_eq_two.1 (show ops.length = 2 by omega)
    simp [imm16]

theorem tail_encode_build {r : Rule} (hr : r ∈ rules) (b : Byte) (ops : List Byte) :
    (encode (r.build b ops)).tail = keptOperands r.shape ops :=
  have h : rules.map (fun r => (encode (r.build b ops)).tail) = rules.map (fun r => keptOperands r.shape ops) := rfl
  List.map_inj_left.1 h r hr

theorem tail_encode_assemble {b : Byte} {ops : List Byte} (h : ops.length = oplen (classify b).shape) :
    (encode (assemble b ops)).tail = ops := by
  refine Eq.trans ?_ (keptOperands_eq h)
  rw [assemble, classify, classifyWith]
  cases hf : rules.find? (·.selects b) with
  | none => rfl
  | some r => exact tail_encode_build (List.mem_of_find?_eq_some hf) b ops

/-- The meaning of a decoded instruction is the listing of the bytes it was decoded from (R147). -/
theorem exec_assemble {b : Byte} {ops : List Byte} (h : ops.length = oplen (classify b).shape) (s : State) :
    exec (assemble b ops) s = listInstr (classify b) b ops s := by
  rw [exec_eq_listInstr (wellFormed_assemble b ops), headD_encode_assemble, tail_encode_assemble h]

/-! ## Every record of the stream has a line (R93, R111, R306) -/

theorem classify_fields (b : Byte) : (classify b).fields = fieldsOf (classify b).shape b := by
  rw [classify, classifyWith]
  cases rules.find? (·.selects b) <;> rfl

theorem REG_isSome : ∀ r : BitVec 3, (REG[r.toNat]?).isSome = true := by decide

theorem RP_ARITH_isSome : ∀ p : BitVec 2, (RP_ARITH[p.toNat]?).isSome = true := by decide

theorem RP_ARITH_isSome_of_bit : ∀ p : BitVec 1, (RP_ARITH[p.toNat]?).isSome = true := by decide

theorem RP_STACK_isSome : ∀ p : BitVec 2, (RP_STACK[p.toNat]?).isSome = true := by decide

theorem imm8Text_isSome {ops : List Byte} (h : ops.length = 1) : (imm8Text ops).isSome = true := by
  obtain ⟨v, rfl⟩ := List.length_eq_one_iff.1 h
  rfl

theorem hex16Text_isSome {ops : List Byte} (h : ops.length = 2) : (hex16Text ops).isSome = true := by
  obtain ⟨lo, hi, rfl⟩ := List.length_eq_two.1 h
  rfl

/-- A bit field of its width is in range of its table, and the operand bytes are as many as the shape prints. -/
theorem operandText_isSome (a : Nat) (m : String) (k : Shape) (b : Byte) {ops : List Byte} (h : ops.length = oplen k) :
    (operandText ⟨a, b, ⟨m, k, fieldsOf k b⟩, ops⟩).isSome = true := by
  cases k with
  | none | rst | unknown => rfl
  | regD | regS => exact REG_isSome _
  | rpArith => exact RP_ARITH_isSome _
  | rpBD => exact RP_ARITH_isSome_of_bit _
  | rpStack => exact RP_STACK_isSome _
  | mov =>
    obtain ⟨d, hd⟩ := Option.isSome_iff_exists.1 (REG_isSome (bits53 b))
    obtain ⟨r, hr⟩ := Option.isSome_iff_exists.1 (REG_isSome (bits20 b))
    simp [operandText, fieldsOf, hd, hr]
  | imm8 => exact imm8Text_isSome h
  | regImm8 =>
    obtain ⟨r, hr⟩ := Option.isSome_iff_exists.1 (REG_isSome (bits53 b))
    obtain ⟨v, hv⟩ := Option.isSome_iff_exists.1 (imm8Text_isSome h)
    simp [operandText, fieldsOf, hr, hv]
  | rpImm16 =>
    obtain ⟨p, hp⟩ := Option.isSome_iff_exists.1 (RP_ARITH_isSome (bits54 b))
    obtain ⟨v, hv⟩ := Option.isSome_iff_exists.1 (hex16Text_isSome h)
    simp [operandText, fieldsOf, hp, hv]
  | addr16 =>
    obtain ⟨v, hv⟩ := Option.isSome_iff_exists.1 (hex16Text_isSome h)
    simp [operandText, hv]

theorem InstrRecord.OfStream.format_eq_some {c : InstrRecord} {inp : Input} (h : c.OfStream inp) :
    ∃ l, format c = some l := by
  obtain ⟨a, b, k, ops⟩ := c
  obtain ⟨-, hkind, -, hcount⟩ := h
  dsimp only at hkind hcount
  subst hkind
  have hk : classify b = ⟨(classify b).mnemonic, (classify b).shape, fieldsOf (classify b).shape b⟩ := by
    rw [← classify_fields]
  rw [← Option.isSome_iff_exists, format, Option.isSome_map, hk]
  exact operandText_isSome a _ _ b hcount

/-! ## What a step in status RUNNING does, one rule per case (R141) -/

/-- The bytes that stand after `pos`, as many as the opcode `b` asks for or fewer at the end of the stream (R91). -/
def State.operands (s : State) (b : Byte) : List Byte := s.input.bytesFrom (s.pos + 1) (oplen (classify b).shape)

/-- The run is over in status `st` after `pos` has come to `p`: no line is added (R142, R303, R304). -/
def State.stopAt (s : State) (p : Nat) (st : Status) : State := { s with pos := p, status := st, cur := none }

/-- The record `c` with the line `l` is listed: its bytes consumed, its lines added, the run going on (R143, R147). -/
def State.listRecord (s : State) (c : InstrRecord) (l : String) : State :=
  { s with
    pos := s.pos + (1 + oplen c.kind.shape)
    cur := none
    out := s.out ++ [l]
    diag := s.diag ++ if c.kind.shape = .unknown then [diagLine c.opcode] else [] }

section

variable (s : State) (p : Nat) (st : Status) (c : InstrRecord) (l : String)

@[simp] theorem stopAt_pos : (s.stopAt p st).pos = p := rfl
@[simp] theorem stopAt_status : (s.stopAt p st).status = st := rfl
@[simp] theorem stopAt_cur : (s.stopAt p st).cur = none := rfl
@[simp] theorem stopAt_out : (s.stopAt p st).out = s.out := rfl
@[simp] theorem stopAt_diag : (s.stopAt p st).diag = s.diag := rfl
@[simp] theorem stopAt_input : (s.stopAt p st).input = s.input := rfl

@[simp] theorem listRecord_pos : (s.listRecord c l).pos = s.pos + (1 + oplen c.kind.shape) := rfl
@[simp] theorem listRecord_status : (s.listRecord c l).status = s.status := rfl
@[simp] theorem listRecord_cur : (s.listRecord c l).cur = none := rfl
@[simp] theorem listRecord_out : (s.listRecord c l).out = s.out ++ [l] := rfl
@[simp] theorem listRecord_diag : (s.listRecord c l).diag =
    s.diag ++ (if c.kind.shape = .unknown then [diagLine c.opcode] else []) := rfl
@[simp] theorem listRecord_input : (s.listRecord c l).input = s.input := rfl

end

variable {s t : State}

/-- Where no opcode byte stands the run ends, as the end marker says (R142, R303). -/
theorem step_eq_atBoundary (hs : s.status = .running) (hr : s.input.read s.pos = none) :
    step s = .next (s.stopAt s.pos s.input.endMark.atBoundary) := by
  rw [step_running hs, runStep]
  rcases fetch_cases s with ⟨-, he, hf⟩ | ⟨-, he, hf⟩ | ⟨b, hb, -⟩
  · rw [hf, he]; rfl
  · rw [hf, he]; rfl
  · cases hr.symm.trans hb

/-- Where an opcode byte stands above 0xFFFF the step is refused (R309). -/
theorem step_eq_refused {b : Byte} (hs : s.status = .running) (hb : s.input.read s.pos = some b)
    (ha : Config.maxRenderAddr < s.pos) : step s = .refused (.addressNotRenderable s.pos) := by
  rw [step_running hs, runStep]
  rcases fetch_cases s with ⟨hr, -⟩ | ⟨hr, -⟩ | ⟨-, -, ⟨-, hf⟩ | ⟨hle, -⟩⟩
  · cases hr.symm.trans hb
  · cases hr.symm.trans hb
  · rw [hf]
  · omega

/-- Where the stream ends before the last operand byte the run is aborted, as the end marker says, `pos` after the bytes
read (R303, R304). -/
theorem step_eq_insideInstr {b : Byte} (hs : s.status = .running) (ha : s.pos ≤ Config.maxRenderAddr)
    (hb : s.input.read s.pos = some b) (hn : (s.operands b).length < oplen (classify b).shape) :
    step s = .next (s.stopAt (s.pos + 1 + (s.operands b).length) s.input.endMark.insideInstr) := by
  rw [step_running hs, runStep]
  rcases fetch_cases s with ⟨hr, -⟩ | ⟨hr, -⟩ | ⟨b', hb', hf⟩
  · cases hr.symm.trans hb
  · cases hr.symm.trans hb
  cases hb.symm.trans hb'
  rcases hf with ⟨hlt, -⟩ | ⟨-, _, rfl, ⟨heq, -⟩ | ⟨-, he, hf⟩ | ⟨-, he, hf⟩⟩
  · omega
  · exact absurd heq hn.ne
  · rw [hf, he]; rfl
  · rw [hf, he]; rfl

/-- Where a record of the stream stands its line is printed, and `pos` moves past its bytes (R143, R147). -/
theorem step_eq_list {c : InstrRecord} {l : String} (hs : s.status = .running) (ha : s.pos ≤ Config.maxRenderAddr)
    (hc : c.OfStream s.input) (hp : c.address = s.pos) (hl : format c = some l) :
    step s = .next (s.listRecord c l) := by
  obtain ⟨a, b, k, ops⟩ := c
  obtain ⟨hb, hkind, hops, hcount⟩ := hc
  dsimp only at hp hb hkind hops hcount
  subst hp hkind hops
  rw [step_running hs, runStep]
  rcases fetch_cases s with ⟨hr, -⟩ | ⟨hr, -⟩ | ⟨b', hb', hf⟩
  · cases hr.symm.trans hb
  · cases hr.symm.trans hb
  cases hb.symm.trans hb'
  rcases hf with ⟨hlt, -⟩ | ⟨-, _, rfl, ⟨-, hf⟩ | ⟨hlt, -⟩ | ⟨hlt, -⟩⟩
  · omega
  · simp only [hf, exec_assemble hcount, listInstr_next ha hl]
    split_ifs with hu <;> simp [State.listRecord, hu]
  · omega
  · omega

/-- Everything a step from status RUNNING can answer (R141, R315). -/
inductive StepCases (s : State) : Host.Outcome State Fault Refusal → Prop
  | atBoundary (hr : s.input.read s.pos = none) :
    StepCases s (.next (s.stopAt s.pos s.input.endMark.atBoundary))
  | refused (b : Byte) (hb : s.input.read s.pos = some b) (ha : Config.maxRenderAddr < s.pos) :
    StepCases s (.refused (.addressNotRenderable s.pos))
  | insideInstr (b : Byte) (ha : s.pos ≤ Config.maxRenderAddr) (hb : s.input.read s.pos = some b)
    (hn : (s.operands b).length < oplen (classify b).shape) :
    StepCases s (.next (s.stopAt (s.pos + 1 + (s.operands b).length) s.input.endMark.insideInstr))
  | list (c : InstrRecord) (l : String) (ha : s.pos ≤ Config.maxRenderAddr) (hc : c.OfStream s.input)
    (hp : c.address = s.pos) (hl : format c = some l) :
    StepCases s (.next (s.listRecord c l))

theorem step_cases (hs : s.status = .running) : StepCases s (step s) := by
  cases hb : s.input.read s.pos with
  | none => rw [step_eq_atBoundary hs hb]; exact .atBoundary hb
  | some b =>
    rcases Nat.lt_or_ge Config.maxRenderAddr s.pos with ha | ha
    · rw [step_eq_refused hs hb ha]; exact .refused b hb ha
    rcases Nat.lt_or_eq_of_le (bytesFrom_length_le s.input (s.pos + 1) (oplen (classify b).shape)) with hn | hn
    · rw [step_eq_insideInstr hs ha hb hn]; exact .insideInstr b ha hb hn
    · have hc : InstrRecord.OfStream ⟨s.pos, b, classify b, _⟩ s.input := ⟨hb, rfl, rfl, hn⟩
      obtain ⟨l, hl⟩ := hc.format_eq_some
      rw [step_eq_list hs ha hc rfl hl]; exact .list _ l ha hc rfl hl

theorem running_of_step_next (h : step s = .next t) : s.status = .running := by
  by_contra hs
  obtain ⟨f, -, hf⟩ := step_terminal hs
  cases hf.symm.trans h

theorem stepCases_of_step_next (h : step s = .next t) : StepCases s (.next t) :=
  h ▸ step_cases (running_of_step_next h)

/-! ## The run status (R23, R310, R315) -/

/-- Settles O40: the fault of a terminal status is the one `stopFault` names, and RUNNING has none. -/
theorem terminalStatusIsNeverLeft : Obligations.TerminalStatusIsNeverLeft := by
  have stops (s : State) (f : Fault) (h : stopFault s.status = some f) : step s = .fault f := by
    simp [step, driverStep, h]
  refine ⟨fun s h => stops s _ (by rw [h]; rfl), fun s h => stops s _ (by rw [h]; rfl),
    fun s h => stops s _ (by rw [h]; rfl), fun s h => stops s _ (by rw [h]; rfl), fun s f h hs => ?_⟩
  have hc := step_cases hs
  rw [h] at hc
  cases hc

/-! ## The lines printed before a step (R27, R144) -/

/-- Settles O45: the case a step falls in is told from the stream and `pos`, and the same rule holds with
other lines. -/
theorem stepDoesNotReadItsOutput : Obligations.StepDoesNotReadItsOutput := by
  intro s t h
  have hs := running_of_step_next h
  cases stepCases_of_step_next h with
  | atBoundary hr =>
    refine ⟨[], [], by simp, by simp, fun o d => ?_⟩
    simpa [State.stopAt] using step_eq_atBoundary (s := { s with out := o, diag := d }) hs hr
  | insideInstr b ha hb hn =>
    refine ⟨[], [], by simp, by simp, fun o d => ?_⟩
    simpa [State.stopAt, State.operands] using step_eq_insideInstr (s := { s with out := o, diag := d }) hs ha hb hn
  | list c l ha hc hp hl =>
    exact ⟨_, _, rfl, rfl, fun o d => step_eq_list (s := { s with out := o, diag := d }) hs ha hc hp hl⟩

/-! ## The invariant (R25, R50, R142, R145) -/

theorem State.Inv.of_running (hw : Memory.wf s.input.cells = true) (hp : s.pos ≤ s.input.length) (hc : s.cur = none)
    (hs : s.status = .running) : s.Inv where
  stream    := hw
  inRange   := hp
  noRecord  := hc
  atEnd     := fun h => absurd hs h
  doneMark  := by simp [hs]
  truncMark := by simp [hs]
  ioMark    := by simp [hs]
  noBug     := by simp [hs]

/-- A run that stopped at `L` with a status of its end marker: the two tables of R142, R303 and R304 agree with the
invariant. -/
theorem State.Inv.of_ended (hw : Memory.wf s.input.cells = true) (hp : s.pos = s.input.length) (hc : s.cur = none)
    (hs : s.status = s.input.endMark.atBoundary ∨ s.status = s.input.endMark.insideInstr) : s.Inv := by
  cases he : s.input.endMark <;> rw [he] at hs
  case endOfStream =>
    have hst : s.status = .done ∨ s.status = .abortTruncated := hs
    exact ⟨hw, hp.le, hc, fun _ => hp, fun _ => he, fun _ => he, by rcases hst with h | h <;> simp [h],
      by rcases hst with h | h <;> simp [h]⟩
  case ioError =>
    have hst : s.status = .abortIO := hs.elim id id
    exact ⟨hw, hp.le, hc, fun _ => hp, by simp [hst], by simp [hst], fun _ => he, by simp [hst]⟩

theorem boot_inv (bs : List Byte) (e : EndMarker) : (boot (streamOf bs e)).Inv :=
  .of_running (boot_wf bs e) (Nat.zero_le _) rfl rfl

/-- Settles O47: the reset state is the reset state with the empty stream bound. -/
theorem invariantHoldsAtReset : Obligations.InvariantHoldsAtReset := ⟨boot_inv [] .endOfStream, boot_inv⟩

theorem Input.succ_le_length_of_read {inp : Input} (h : Memory.wf inp.cells = true) {a : Nat} {v : Byte}
    (hr : inp.read a = some v) : a + 1 ≤ inp.length := (Memory.read_isSome h a).1 (Option.isSome_of_eq_some hr)

theorem Input.length_le_of_read {inp : Input} (h : Memory.wf inp.cells = true) {a : Nat} (hr : inp.read a = none) :
    inp.length ≤ a :=
  Nat.le_of_not_lt fun hlt => Option.not_isSome_iff_eq_none.2 hr ((Memory.read_isSome h a).2 hlt)

/-- Bytes that stand one after another from an address up to `L` end at or before `L`. -/
theorem Input.bytesFrom_end_le {inp : Input} (h : Memory.wf inp.cells = true) {a : Nat} (n : Nat)
    (ha : a ≤ inp.length) : a + (inp.bytesFrom a n).length ≤ inp.length := by
  induction n generalizing a with
  | zero => simpa [Input.bytesFrom] using ha
  | succ n ih =>
    cases hr : inp.read a with
    | none => simpa [Input.bytesFrom, hr] using ha
    | some v =>
      have hrest := ih (Input.succ_le_length_of_read h hr)
      simp only [Input.bytesFrom, hr, List.length_cons]
      omega

/-- Settles O48: a step that lists a record keeps `pos` in the stream, and one that ends the run met an address without
a byte, so it stands at `L`. -/
theorem everyStepKeepsTheInvariant : Obligations.EveryStepKeepsTheInvariant := by
  intro s t hi h
  have hw := hi.stream
  have hs := running_of_step_next h
  cases stepCases_of_step_next h with
  | atBoundary hr =>
    exact .of_ended hw (Nat.le_antisymm hi.inRange (Input.length_le_of_read hw hr)) rfl (.inl rfl)
  | insideInstr b ha hb hn =>
    have hle := Input.bytesFrom_end_le hw (oplen (classify b).shape) (Input.succ_le_length_of_read hw hb)
    exact .of_ended hw (Nat.le_antisymm hle (Input.length_le_of_read hw (bytesFrom_short hn))) rfl (.inr rfl)
  | list c l ha hc hp hl =>
    have hle := Input.bytesFrom_end_le hw (oplen c.kind.shape) (Input.succ_le_length_of_read hw hc.opcode)
    rw [← hc.ops, hc.count, hp, Nat.add_assoc] at hle
    exact .of_running hw hle rfl hs

/-! ## The listing (R21, R28, R145) -/

/-- Settles O49: no instruction is consumed. -/
theorem listingHoldsAtReset : Obligations.ListingHoldsAtReset := fun _ =>
  ⟨[], 0, rfl, nofun, rfl, rfl, fun _ => rfl, Nat.zero_le _, Nat.zero_le _⟩

/-- A record at the end of a chain makes it longer by the record's length (R21). -/
theorem Chain.concat {a e : Nat} {cs : List InstrRecord} {c : InstrRecord} (h : Chain a cs e) (hc : c.address = e) :
    Chain a (cs ++ [c]) (e + (1 + oplen c.kind.shape)) := by
  induction cs generalizing a with
  | nil => cases h; exact ⟨hc, rfl⟩
  | cons d cs ih => exact ⟨h.1, ih h.2⟩

/-- Settles O50: a step that lists a record puts it at the end of the chain; one that ends the run keeps the chain, and
has read at most the opcode and one operand byte after it. -/
theorem everyStepKeepsTheListing : Obligations.EveryStepKeepsTheListing := by
  rintro s t ⟨cs, e, hchain, hstream, hout, hdiag, hpos, -, -⟩ h
  have hs := running_of_step_next h
  obtain rfl := hpos (.inl hs)
  cases stepCases_of_step_next h with
  | atBoundary hr =>
    exact ⟨cs, s.pos, hchain, hstream, hout, hdiag, fun _ => rfl, Nat.le_refl _, Nat.le_add_right _ 2⟩
  | insideInstr b ha hb hn =>
    have hle := oplen_le (classify b).shape
    refine ⟨cs, s.pos, hchain, hstream, hout, hdiag, ?_, ?_, ?_⟩
    · cases s.input.endMark <;> simp [EndMarker.insideInstr]
    · rw [stopAt_pos]; omega
    · rw [stopAt_pos]; omega
  | list c l ha hc hp hl =>
    refine ⟨cs ++ [c], _, hchain.concat hp, ?_, ?_, ?_, fun _ => rfl, Nat.le_refl _, Nat.le_add_right _ 2⟩
    · exact List.forall_mem_append.2 ⟨hstream, List.forall_mem_singleton.2 hc⟩
    · simp [hout, hl]
    · by_cases hu : c.kind.shape = .unknown <;> simp [hdiag, InstrRecord.isUnknown, hu]

end Sys2Proof.Machine
end

section
/-! PROOFS. The byte reader and the byte order of a 16-bit operand (`20_memory.md`): what one read answers, that a decoding
step depends on the bytes it consumes alone, and that a two-byte operand is printed high byte first. -/

namespace Sys2Proof.Machine

open Sys2Proof.Spec

variable {s t : State}

/-! ## A step whose reads met the end marker ends the run (R54, R142, R310) -/

theorem Exception.status_ne_running (e : Exception) : e.status ≠ .running := by
  cases e <;> simp [Exception.status]

theorem EndMarker.atBoundary_ne_running (e : EndMarker) : e.atBoundary ≠ .running := by
  cases e <;> simp [EndMarker.atBoundary]

theorem EndMarker.insideInstr_ne_running (e : EndMarker) : e.insideInstr ≠ .running := by
  cases e <;> simp [EndMarker.insideInstr]

theorem status_ne_running_of_fetch_end (hf : (∃ e s', fetch s = .raised e s') ∨ fetch s = .endOfRun)
    (hs : s.status = .running) (h : step s = .next t) : t.status ≠ .running := by
  rw [step_running hs, runStep] at h
  rcases hf with ⟨e, s', hf⟩ | hf <;> rw [hf] at h <;> cases h
  · exact e.status_ne_running
  · simp

/-- Settles O34: a stream holds a byte at exactly the addresses below its length, and an end marker met in a step leaves
a terminal status, in which a step answers a fault. -/
theorem nextByteReadsInOrder : Obligations.NextByteReadsInOrder := by
  refine ⟨fun s bs e hin => ?_, fun s t hf hs h => ?_⟩
  · have hread : s.input.read s.pos = bs[s.pos]? := by rw [hin, streamOf_read]
    have hmark : s.input.endMark = e := by rw [hin, streamOf_endMark]
    exact ⟨fun hlt => nextByte_some (hread.trans (List.getElem?_eq_getElem hlt)),
      fun hle he => nextByte_end (hread.trans (List.getElem?_eq_none hle)) (hmark.trans he),
      fun hle he => nextByte_fail (hread.trans (List.getElem?_eq_none hle)) (hmark.trans he)⟩
  · obtain ⟨f, -, hstop⟩ := step_terminal (status_ne_running_of_fetch_end hf hs h)
    exact ⟨f, hstop⟩

/-! ## The bytes an instruction consumes (R52, R98, R350) -/

theorem Input.bytesFrom_congr {inp inp' : Input} {a n : Nat} (h : ∀ x, a ≤ x → x < a + n → inp.read x = inp'.read x) :
    inp.bytesFrom a n = inp'.bytesFrom a n := by
  induction n generalizing a with
  | zero => rfl
  | succ n ih =>
    have hrest : inp.bytesFrom (a + 1) n = inp'.bytesFrom (a + 1) n := ih fun x hx hx' => h x (by omega) (by omega)
    simp only [Input.bytesFrom, h a (by omega) (by omega), hrest]

/-- A record of one stream is a record of every stream with the same bytes where the instruction stands. -/
theorem InstrRecord.OfStream.congr {c : InstrRecord} {inp inp' : Input} (hc : c.OfStream inp)
    (h : ∀ x, c.address ≤ x → x < c.address + (1 + oplen c.kind.shape) → inp'.read x = inp.read x) :
    c.OfStream inp' where
  opcode := (h c.address (by omega) (by omega)).trans hc.opcode
  kind   := hc.kind
  ops    := hc.ops.trans (Input.bytesFrom_congr fun x hx hx' => h x (by omega) (by omega)).symm
  count  := hc.count

/-- Settles O46: a step that goes on lists a record, which stands in the other stream too. -/
theorem stepReadsOnlyTheBytesItConsumes : Obligations.StepReadsOnlyTheBytesItConsumes := by
  intro s t inp h ht hread
  have hs := running_of_step_next h
  cases stepCases_of_step_next h with
  | atBoundary hr => exact absurd ht s.input.endMark.atBoundary_ne_running
  | insideInstr b ha hb hn => exact absurd ht s.input.endMark.insideInstr_ne_running
  | list c l ha hc hp hl =>
    have hc' : c.OfStream inp := hc.congr (by rw [hp]; exact hread)
    exact step_eq_list (s := { s with input := inp }) hs ha hc' hp hl

/-! ## The byte order of a 16-bit operand (R60, R61) -/

theorem hex2_append_hex2 (hi : Nat) {lo : Nat} (hlo : lo < 256) :
    hex2 hi ++ hex2 lo = hex4 (hi * 256 + lo) := by
  rw [← String.toList_inj, String.toList_append, hex2_toList, hex2_toList, hex4_toList,
    show (hi * 256 + lo) / 4096 % 16 = hi / 16 % 16 by omega, show (hi * 256 + lo) / 256 % 16 = hi % 16 by omega,
    show (hi * 256 + lo) / 16 % 16 = lo / 16 % 16 by omega, show (hi * 256 + lo) % 16 = lo % 16 by omega]
  rfl

theorem imm16_toNat (lo hi : Byte) : (imm16 [lo, hi]).toNat = hi.toNat * 256 + lo.toNat := by
  have hlo : lo.toNat < 2 ^ 8 := lo.isLt
  show (hi ++ lo).toNat = _
  rw [BitVec.toNat_append, ← Nat.shiftLeft_add_eq_or_of_lt hlo, Nat.shiftLeft_eq]

/-- The two shapes with a 16-bit operand (R90). -/
theorem shape_of_oplen_eq_two {k : Shape} (h : oplen k = 2) : k = .rpImm16 ∨ k = .addr16 := by
  cases k <;> simp_all [oplen]

/-- Both shapes with a 16-bit operand print it last, after a `$` (R61, R114). -/
theorem operandText_of_oplen_eq_two {k : Shape} (h : oplen k = 2) (a : Nat) (m : String) (b lo hi : Byte) :
    ∃ p, operandText ⟨a, b, ⟨m, k, fieldsOf k b⟩, [lo, hi]⟩ = some (p ++ "$" ++ hex4 (v16 lo hi)) := by
  rcases shape_of_oplen_eq_two h with rfl | rfl
  · obtain ⟨p, hp⟩ := Option.isSome_iff_exists.1 (RP_ARITH_isSome (bits54 b))
    exact ⟨p ++ ",#", by simp [operandText, fieldsOf, hp, hex16Text, String.append_assoc]⟩
  · exact ⟨"", by simp [operandText, hex16Text]⟩

/-- The line of an instruction with a 16-bit operand ends in `$` and the operand (R61, R111). -/
theorem format_of_oplen_eq_two {b : Byte} (h : oplen (classify b).shape = 2) (a : Nat) (lo hi : Byte) :
    ∃ front, format ⟨a, b, classify b, [lo, hi]⟩ = some (front ++ "$" ++ hex4 (v16 lo hi) ++ "\n") := by
  obtain ⟨p, hp⟩ := operandText_of_oplen_eq_two h a (classify b).mnemonic b lo hi
  rw [← classify_fields] at hp
  have hne : p ++ "$" ++ hex4 (v16 lo hi) ≠ "" := by simp
  refine ⟨hex4 a ++ " " ++ padr (classify b).mnemonic Config.mnemonicWidth ++ " " ++ p, ?_⟩
  rw [format, hp, Option.map_some, lineText_operand hne]
  simp only [String.append_assoc]

theorem bytesFrom_two {inp : Input} {a : Nat} {v w : Byte} (hv : inp.read a = some v) (hw : inp.read (a + 1) = some w) :
    inp.bytesFrom a 2 = [v, w] := by
  simp [Input.bytesFrom, hv, hw]

/-- Settles O32: the record of the opcode with the operand bytes `lo`, `hi` is listed, and the four digits of its operand
are the digits of `hi` before those of `lo`. -/
theorem twoByteOperandIsStoredLowAndPrintedHighFirst : Obligations.TwoByteOperandIsStoredLowAndPrintedHighFirst := by
  intro s b lo hi hs ha hb hk hlo hhi
  have hhex := hex2_append_hex2 hi.toNat lo.isLt
  have hc : InstrRecord.OfStream ⟨s.pos, b, classify b, [lo, hi]⟩ s.input :=
    ⟨hb, rfl, by rw [hk]; exact (bytesFrom_two hlo hhi).symm, hk.symm⟩
  obtain ⟨front, hl⟩ := format_of_oplen_eq_two hk s.pos lo hi
  refine ⟨hhex, imm16_toNat lo hi, _, front, step_eq_list hs ha hc rfl hl, ?_⟩
  rw [listRecord_out, hhex, v16]

end Sys2Proof.Machine
end

section
/-! PROOFS. Encoding and decoding (`30_encoding.md`): which rule selects a byte, that decoding and encoding are inverse to
each other, and what the line of an instruction is. -/

namespace Sys2Proof.Machine

open Sys2Proof.Spec

/-! ## The rule that selects a byte (R85 to R87, R89) -/

/-- Settles O5: the rules are counted at each of the 256 bytes. -/
theorem ruleOverlapIsOnly76 : Obligations.RuleOverlapIsOnly76 := by
  unfold Obligations.RuleOverlapIsOnly76
  decide

/-- Where at most one element of a list is counted, any two that have the property are the same. -/
theorem subsingleton_of_filter_length_le_one {α : Type} {p : α → Bool} {l : List α} (h : (l.filter p).length ≤ 1) :
    {x ∈ l | p x}.Subsingleton := by
  rintro x ⟨hx, hpx⟩ y ⟨hy, hpy⟩
  have hxf : x ∈ l.filter p := List.mem_filter.2 ⟨hx, hpx⟩
  have hyf : y ∈ l.filter p := List.mem_filter.2 ⟨hy, hpy⟩
  obtain ⟨a, ha⟩ := List.length_eq_one_iff.1 (Nat.le_antisymm h (List.length_pos_of_mem hxf))
  rw [ha, List.mem_singleton] at hxf hyf
  exact hxf.trans hyf.symm

theorem filter_rules_length_le_one {b : Byte} (hb : b ≠ 0x76) : (rules.filter (·.selects b)).length ≤ 1 := by
  rw [ruleOverlapIsOnly76 b, if_neg hb]
  split <;> decide

theorem filter_exactRules_length_le_one : ∀ b : Byte, (exactRules.filter (·.selects b)).length ≤ 1 := by decide

theorem filter_familyRules_length_le_one : ∀ b : Byte, (familyRules.filter (·.selects b)).length ≤ 1 := by decide

/-- Where at most one rule selects the byte, the order of the rules has no effect on which one is found (R85). -/
theorem find?_selects_of_perm {rs rs' : List Rule} {b : Byte} (hp : rs.Perm rs')
    (h : (rs'.filter (·.selects b)).length ≤ 1) : rs.find? (·.selects b) = rs'.find? (·.selects b) :=
  (List.find?_eq_find?_of_perm hp.symm (subsingleton_of_filter_length_le_one h)).symm

/-- Settles O6: at most one rule selects a byte other than 0x76, and at most one rule of each of the two groups selects
any byte, so the order among them has no effect. -/
theorem ruleOrderMattersOnlyFor76 : Obligations.RuleOrderMattersOnlyFor76 := by
  refine ⟨fun rs b hrs hb => ?_, fun es fs b hes hfs => ?_⟩
  · rw [classify, classifyWith, classifyWith, find?_selects_of_perm hrs (filter_rules_length_le_one hb)]
  · rw [classify, classifyWith, classifyWith, rules, List.find?_append, List.find?_append,
      find?_selects_of_perm hes (filter_exactRules_length_le_one b),
      find?_selects_of_perm hfs (filter_familyRules_length_le_one b)]

/-- A byte classified UNKNOWN is selected by no rule, for no rule has that shape (R89). -/
theorem mem_unknownSet_of_classify {b : Byte} (h : (classify b).shape = .unknown) : b ∈ Config.unknownSet := by
  have hshape : ∀ r ∈ rules, r.shape ≠ .unknown := by decide
  rw [classify, classifyWith] at h
  cases hf : rules.find? (·.selects b) with
  | some r =>
    rw [hf] at h
    exact absurd h (hshape r (List.mem_of_find?_eq_some hf))
  | none =>
    have hcount := ruleOverlapIsOnly76 b
    rw [List.filter_eq_nil_iff.2 (List.find?_eq_none.1 hf)] at hcount
    by_contra hb
    rw [Config.unknownSet] at hb
    rw [if_neg hb] at hcount
    split at hcount <;> cases hcount

/-- Settles O7: only the bytes of UNKNOWN_SET are selected by no rule, and each of them is classified UNKNOWN. -/
theorem unknownBytesAreTheTwelve : Obligations.UnknownBytesAreTheTwelve := by
  refine fun b => ⟨fun h => mem_unknownSet_of_classify h.2, fun hb => ?_⟩
  have hk := classify_unknown b (List.contains_iff_mem.2 hb)
  exact ⟨hk, by rw [hk]⟩

/-! ## The operand lengths counted (R90) -/

/-- The numbers below `n * m` are `n` rows of `m`. -/
theorem range_mul_eq_flatMap (n m : Nat) :
    List.range (n * m) = (List.range n).flatMap fun i => (List.range m).map (i * m + ·) := by
  induction n with
  | zero => simp
  | succ n ih => simp [Nat.succ_mul, List.range_add, List.range_succ, ih]

/-- The bytes with a property, counted row by row of the 16 by 16 opcode map. -/
theorem length_filter_bytes (p : Byte → Bool) : (((List.range 256).map (BitVec.ofNat 8)).filter p).length =
    ((List.range 16).map fun i => ((List.range 16).filter fun j => p (BitVec.ofNat 8 (i * 16 + j))).length).sum := by
  rw [show 256 = 16 * 16 from rfl, range_mul_eq_flatMap, List.map_flatMap, List.filter_flatMap, List.length_flatMap]
  simp only [List.filter_map, List.length_map, Function.comp_def]

/-- Settles O8: the sixteen rows of the opcode map are added. -/
theorem operandLengthCounts : Obligations.OperandLengthCounts :=
  ⟨(length_filter_bytes _).trans (by decide), (length_filter_bytes _).trans (by decide),
    (length_filter_bytes _).trans (by decide)⟩

/-! ## What the decoder answers (R83, R90, R98) -/

theorem decode_cons_missing {b : Byte} {rest : List Byte} (h : rest.length < oplen (classify b).shape) :
    decode (b :: rest) = .error (.missingOperand b rest.length) := by
  simp [decode, Nat.not_le.2 h]

theorem decode_cons_append {b : Byte} {ops : List Byte} (h : ops.length = oplen (classify b).shape) (rest : List Byte) :
    decode (b :: (ops ++ rest)) = .ok (assemble b ops, rest) := by
  rw [decode_cons_ok (by simp [← h]), ← h, List.take_left, List.drop_left]

/-- Settles O3: a list is empty, or its opcode has too few bytes after it, or it has enough. -/
theorem decodeRejectsOnlyMissingBytes : Obligations.DecodeRejectsOnlyMissingBytes :=
  ⟨rfl, fun _ _ => ⟨decode_cons_missing, fun h => ⟨_, decode_cons_ok h⟩⟩⟩

/-- Settles O4: each word is decoded. -/
theorem wordsOfEachFamilyDecode : Obligations.WordsOfEachFamilyDecode :=
  ⟨rfl, rfl, rfl, rfl, rfl, rfl, rfl, rfl, rfl, rfl, rfl, rfl⟩

/-! ## What is decoded has the bytes read as its encoding (R96, R98) -/

theorem encode_eq_cons (i : Instr) : encode i = (encode i).headD 0 :: (encode i).tail := by
  cases i <;> rfl

theorem encode_assemble {b : Byte} {ops : List Byte} (h : ops.length = oplen (classify b).shape) :
    encode (assemble b ops) = b :: ops := by
  rw [encode_eq_cons, headD_encode_assemble, tail_encode_assemble h]

/-- Settles O2: the decoder answers the instruction its rule assembles from the bytes read, and that encodes to them. -/
theorem decodedBytesAreTheEncoding : Obligations.DecodedBytesAreTheEncoding := by
  intro bs rest i h
  cases bs with
  | nil => simp [decode] at h
  | cons b bs =>
    rcases Nat.lt_or_ge bs.length (oplen (classify b).shape) with hn | hn
    · rw [decode_cons_missing hn] at h
      cases h
    · rw [decode_cons_ok hn] at h
      cases h
      refine ⟨wellFormed_assemble _ _, ?_⟩
      rw [encode_assemble (List.length_take_of_le hn), List.cons_append, List.take_append_drop]

/-! ## An instruction is decoded from its encoding (R80 to R82, R87) -/

theorem Word.exists_bytes (w : Word) : ∃ hi lo : Byte, w = hi ++ lo :=
  ⟨highByte w, lowByte w, (highByte_append_lowByte w).symm⟩

/-- Any rule that selects a byte other than 0x76 makes its instruction. -/
theorem assemble_of_mem {r : Rule} {b : Byte} (hr : r ∈ rules) (hs : r.selects b = true) (hb : b ≠ 0x76)
    (ops : List Byte) : assemble b ops = r.build b ops := by
  rw [assemble]
  cases hf : rules.find? (·.selects b) with
  | none => exact absurd hs (List.find?_eq_none.1 hf r hr)
  | some r' =>
    have hunique := subsingleton_of_filter_length_le_one (filter_rules_length_le_one hb)
    rw [hunique ⟨hr, hs⟩ ⟨List.mem_of_find?_eq_some hf, List.find?_some (p := (Rule.selects · b)) hf⟩]

theorem assemble_mvi (r : BitVec 3) (v : Byte) : assemble (0b00#2 ++ r ++ 0b110#3) [v] = .mvi r v := by
  have hopcode : ∀ r : BitVec 3, ((0b00#2 ++ r ++ 0b110#3) &&& 0xC7 == (0x06 : Byte)) = true ∧
      0b00#2 ++ r ++ 0b110#3 ≠ (0x76 : Byte) ∧ bits53 (0b00#2 ++ r ++ 0b110#3) = r := by decide
  obtain ⟨hs, hb, hr⟩ := hopcode r
  rw [assemble_of_mem (r := ⟨"MVI", 0xC7, 0x06, .regImm8, fun b ops => .mvi (bits53 b) (imm8 ops)⟩)
    (by simp [rules, familyRules]) hs hb]
  exact congrArg (Instr.mvi · v) hr

theorem assemble_lxi (p : BitVec 2) (w : Word) :
    assemble (0b00#2 ++ p ++ 0b0001#4) [lowByte w, highByte w] = .lxi p w := by
  have hopcode : ∀ p : BitVec 2, ((0b00#2 ++ p ++ 0b0001#4) &&& 0xCF == (0x01 : Byte)) = true ∧
      0b00#2 ++ p ++ 0b0001#4 ≠ (0x76 : Byte) ∧ bits54 (0b00#2 ++ p ++ 0b0001#4) = p := by decide
  obtain ⟨hs, hb, hp⟩ := hopcode p
  rw [assemble_of_mem (r := ⟨"LXI", 0xCF, 0x01, .rpImm16, fun b ops => .lxi (bits54 b) (imm16 ops)⟩)
    (by simp [rules, familyRules]) hs hb]
  exact congrArg₂ Instr.lxi hp (highByte_append_lowByte w)

/-- The rules give every well-formed instruction back from its own bytes: a field from its place in the opcode byte, a
16-bit operand from its two bytes. -/
theorem assemble_encode {i : Instr} (h : wellFormed i = true) :
    assemble ((encode i).headD 0) (encode i).tail = i := by
  cases i
  case lxi p w => exact assemble_lxi p w
  case mvi r v => exact assemble_mvi r v
  case mov d s => revert d s; decide
  case unknown raw =>
    have hraw : ∀ b ∈ Config.unknownSet, assemble b [] = .unknown b := by decide
    exact hraw raw (List.contains_iff_mem.1 h)
  case stax p | ldax p | inx p | dcx p | dad p | pop p | push p => revert p; decide
  case inr r | dcr r | add r | adc r | sub r | sbb r | ana r | xra r | ora r | cmp r | rst r => revert r; decide
  case lda w | sta w | lhld w | shld w | jmp w | jnz w | jz w | jnc w | jc w | jpo w | jpe w | jp w | jm w
      | call w | cnz w | cz w | cnc w | cc w | cpo w | cpe w | cp w | cm w =>
    obtain ⟨hi, lo, rfl⟩ := Word.exists_bytes w
    simp only [encode, lowByte_append, highByte_append, List.headD_cons, List.tail_cons]
    rfl
  -- The rest have an exact opcode byte and at most an 8-bit operand.
  all_goals
    simp only [encode, List.headD_cons, List.tail_cons]
    rfl

/-- An encoding has as many operand bytes as the shape of its opcode byte (R90). -/
theorem tail_encode_length {i : Instr} (h : wellFormed i = true) :
    (encode i).tail.length = oplen (classify ((encode i).headD 0)).shape := by
  have hkept (k : Shape) (ops : List Byte) : (keptOperands k ops).length = oplen k := by cases k <;> rfl
  rw [← congrArg (fun j => (encode j).tail.length) (assemble_encode h), assemble, classify, classifyWith]
  cases hf : rules.find? (·.selects ((encode i).headD 0)) with
  | none => rfl
  | some r => exact (congrArg _ (tail_encode_build (List.mem_of_find?_eq_some hf) _ _)).trans (hkept _ _)

/-- Settles O1: the encoding is an opcode byte with all its operand bytes, and the rules give the instruction back from
them. -/
theorem decodeOfEncodeIsTheInstruction : Obligations.DecodeOfEncodeIsTheInstruction := by
  intro i rest h
  rw [encode_eq_cons, List.cons_append, decode_cons_append (tail_encode_length h), assemble_encode h]

/-! ## Fields and operand text (R93, R114) -/

theorem classify_eq (b : Byte) :
    classify b = ⟨(classify b).mnemonic, (classify b).shape, fieldsOf (classify b).shape b⟩ := by
  rw [← classify_fields]

theorem operandText_eq_some (a : Nat) {b : Byte} {ops : List Byte} (h : ops.length = oplen (classify b).shape) :
    ∃ x, operandText ⟨a, b, classify b, ops⟩ = some x := by
  rw [← Option.isSome_iff_exists, classify_eq]
  exact operandText_isSome a _ _ b h

theorem format_eq_some (a : Nat) {b : Byte} {ops : List Byte} (h : ops.length = oplen (classify b).shape) :
    ∃ l, format ⟨a, b, classify b, ops⟩ = some l := by
  obtain ⟨x, hx⟩ := operandText_eq_some a h
  exact ⟨_, by rw [format, hx, Option.map_some]⟩

/-- Settles O9: a field of width `w` is the shifted byte modulo `2 ^ w`, and its table has `2 ^ w` names. -/
theorem fieldsAreInRangeOfTheirTables : Obligations.FieldsAreInRangeOfTheirTables := by
  intro b
  have hfield (start w : Nat) : (b.extractLsb' start w).toNat = (b.toNat >>> start) &&& (2 ^ w - 1) := by
    rw [BitVec.extractLsb'_toNat, Nat.and_two_pow_sub_one_eq_mod]
  exact ⟨⟨hfield 3 3, hfield 0 3, hfield 4 2, hfield 4 1⟩,
    ⟨(bits53 b).isLt, (bits20 b).isLt, (bits54 b).isLt, (bits54 b).isLt, (bit4 b).isLt⟩,
    fun a _ h => operandText_eq_some a h⟩

/-! ## What a meaning answers (R120, R147, R309) -/

/-- Settles O25: a meaning is the listing of the bytes of its own instruction, and they have a line. -/
theorem execPrintsTheFormattedRecordOfItsBytes : Obligations.ExecPrintsTheFormattedRecordOfItsBytes := by
  intro i s h ha
  obtain ⟨l, hl⟩ := format_eq_some s.pos (tail_encode_length h)
  exact ⟨_, _, l, _, encode_eq_cons i, hl, (exec_eq_listInstr h s).trans (listInstr_next ha hl), rfl⟩

/-- Every meaning is one listing, that of an ill-formed term too. -/
theorem exec_eq_listInstr_of_some_kind (i : Instr) (s : State) : ∃ k b ops, exec i s = listInstr k b ops s := by
  cases i <;> exact ⟨_, _, _, rfl⟩

theorem listInstr_completes {s : State} (ha : s.pos ≤ Config.maxRenderAddr) (k : Kind) (b : Byte) (ops : List Byte) :
    ∃ t, listInstr k b ops s = .next t :=
  ⟨_, if_pos ha⟩

/-- Settles O27: every meaning is one listing, which is refused exactly above 0xFFFF. -/
theorem execRefusesExactlyAboveFFFF : Obligations.ExecRefusesExactlyAboveFFFF := by
  intro i s
  obtain ⟨k, b, ops, hlist⟩ := exec_eq_listInstr_of_some_kind i s
  rw [hlist]
  exact ⟨fun ha => listInstr_refused ha, fun ha => listInstr_completes ha k b ops⟩

/-! ## The address field (R112) -/

theorem lineText_eq_address_append (a : Nat) (m x : String) : ∃ rest, lineText a m x = hex4 a ++ " " ++ rest := by
  by_cases hx : x = ""
  · rw [hx, lineText_empty]
    exact ⟨m ++ "\n", by simp only [String.append_assoc]⟩
  · rw [lineText_operand hx]
    exact ⟨padr m Config.mnemonicWidth ++ " " ++ x ++ "\n", by simp only [String.append_assoc]⟩

/-- Settles O28: a step that goes on lists the record at `pos`, which is at most 0xFFFF. -/
theorem lineStartsWithTheOpcodeAddress : Obligations.LineStartsWithTheOpcodeAddress := by
  intro s t hs h ht
  cases stepCases_of_step_next h with
  | atBoundary hr => exact absurd ht s.input.endMark.atBoundary_ne_running
  | insideInstr b ha hb hn => exact absurd ht s.input.endMark.insideInstr_ne_running
  | list c l ha hc hp hl =>
    obtain ⟨x, -, rfl⟩ := Option.map_eq_some_iff.1 hl
    obtain ⟨rest, hrest⟩ := lineText_eq_address_append c.address c.kind.mnemonic x
    exact ⟨hex4 s.pos, rest, by rw [listRecord_out, hrest, hp], rfl, hexText_hex4 _,
      readHex_hex4 (Nat.lt_succ_of_le ha)⟩

/-! ## The grammar of a line (R118) -/

/-- The mnemonics of each shape, as the productions of R118 group them. -/
def mnemonicsOf : Shape → List String
  | .none => mnem0
  | .regD | .regS => mnemR
  | .mov => ["MOV"]
  | .rpArith => ["INX", "DCX", "DAD"]
  | .rpBD => ["STAX", "LDAX"]
  | .rpStack => ["POP", "PUSH"]
  | .rst => ["RST"]
  | .imm8 => mnemI
  | .regImm8 => ["MVI"]
  | .rpImm16 => ["LXI"]
  | .addr16 => mnemA
  | .unknown => ["UNKNOWN"]

theorem mnemonic_mem_mnemonicsOf (b : Byte) : (classify b).mnemonic ∈ mnemonicsOf (classify b).shape := by
  have hrules : ∀ r ∈ rules, r.mnemonic ∈ mnemonicsOf r.shape := by decide
  rw [classify, classifyWith]
  cases h : rules.find? (·.selects b) with
  | none => exact List.mem_singleton_self _
  | some r => exact hrules r (List.mem_of_find?_eq_some h)

theorem pairForms_rpArith : ∀ m ∈ mnemonicsOf .rpArith, (m, RP_ARITH) ∈ pairForms := by decide

theorem pairForms_rpBD : ∀ m ∈ mnemonicsOf .rpBD, (m, ["B", "D"]) ∈ pairForms := by decide

theorem pairForms_rpStack : ∀ m ∈ mnemonicsOf .rpStack, (m, RP_STACK) ∈ pairForms := by decide

theorem name_ne_empty : ∀ x ∈ REG ++ RP_ARITH ++ RP_STACK, x ≠ "" := by decide

theorem mem_BD_of_bit : ∀ p : BitVec 1, ∀ x ∈ RP_ARITH[p.toNat]?, x ∈ ["B", "D"] := by decide

theorem dec1_mem_digits : ∀ n : BitVec 3, dec1 n.toNat ∈ ["0", "1", "2", "3", "4", "5", "6", "7"] := by decide

theorem hexText_of_imm8Text {ops : List Byte} {x : String} (h : imm8Text ops = some x) :
    ∃ v, x = "#$" ++ v ∧ HexText 2 v := by
  unfold imm8Text at h
  split at h
  · cases h; exact ⟨_, rfl, hexText_hex2 _⟩
  · cases h

theorem hexText_of_hex16Text {ops : List Byte} {x : String} (h : hex16Text ops = some x) : HexText 4 x := by
  unfold hex16Text at h
  split at h
  · cases h; exact hexText_hex4 _
  · cases h

/-- A line without operand text (R111). -/
theorem line_bare (a : Nat) {m : String} (hm : m ∈ mnem0) : Line (lineText a m "") :=
  ⟨_, m, lineText_empty a m, hexText_hex4 a, .none m hm⟩

/-- A line with operand text: the model's padding is the `pad7` of the grammar. -/
theorem line_operand (a : Nat) {m x : String} (hx : x ≠ "") (hb : Body (pad7 m ++ " " ++ x)) :
    Line (lineText a m x) := by
  have hpad : padr m Config.mnemonicWidth = pad7 m := rfl
  exact ⟨hex4 a, _, by rw [lineText_operand hx, hpad]; simp only [String.append_assoc], hexText_hex4 a, hb⟩

/-- Each shape prints its operand as one production of the grammar says (R114, R118). -/
theorem line_of_operandText {a : Nat} {m x : String} {k : Shape} {b : Byte} {ops : List Byte} (hm : m ∈ mnemonicsOf k)
    (h : operandText ⟨a, b, ⟨m, k, fieldsOf k b⟩, ops⟩ = some x) : Line (lineText a m x) := by
  cases k with
  | none => cases h; exact line_bare a hm
  | regD | regS =>
    have hx := List.mem_of_getElem? h
    exact line_operand a (name_ne_empty x (by simp [hx])) (.reg m x hm hx)
  | mov =>
    obtain rfl := List.mem_singleton.1 hm
    obtain ⟨d, hd, h⟩ := Option.bind_eq_some_iff.1 h
    obtain ⟨r, hr, h⟩ := Option.bind_eq_some_iff.1 h
    cases h
    refine line_operand a (by simp) ?_
    rw [show pad7 "MOV" = "MOV    " from rfl]
    simpa only [String.append_assoc] using Body.mov d r (List.mem_of_getElem? hd) (List.mem_of_getElem? hr)
  | rpArith =>
    have hx := List.mem_of_getElem? h
    exact line_operand a (name_ne_empty x (by simp [hx])) (.pair m x _ (pairForms_rpArith m hm) hx)
  | rpBD =>
    have hx := List.mem_of_getElem? h
    exact line_operand a (name_ne_empty x (by simp [hx])) (.pair m x _ (pairForms_rpBD m hm) (mem_BD_of_bit _ x h))
  | rpStack =>
    have hx := List.mem_of_getElem? h
    exact line_operand a (name_ne_empty x (by simp [hx])) (.pair m x _ (pairForms_rpStack m hm) hx)
  | rst =>
    obtain rfl := List.mem_singleton.1 hm
    cases h
    exact line_operand a (by simp [dec1]) (.rst _ (dec1_mem_digits _))
  | imm8 =>
    obtain ⟨v, rfl, hv⟩ := hexText_of_imm8Text h
    refine line_operand a (by simp) ?_
    simpa only [String.append_assoc] using Body.imm m v hm hv
  | regImm8 =>
    obtain rfl := List.mem_singleton.1 hm
    obtain ⟨r, hr, h⟩ := Option.bind_eq_some_iff.1 h
    obtain ⟨y, hy, h⟩ := Option.bind_eq_some_iff.1 h
    obtain ⟨v, rfl, hv⟩ := hexText_of_imm8Text hy
    cases h
    refine line_operand a (by simp) ?_
    have hbody := Body.mvi r v (List.mem_of_getElem? hr) hv
    rw [show ",#$" = "," ++ "#$" from rfl] at hbody
    rw [show pad7 "MVI" = "MVI    " from rfl]
    simpa only [String.append_assoc] using hbody
  | rpImm16 =>
    obtain rfl := List.mem_singleton.1 hm
    obtain ⟨p, hp, h⟩ := Option.bind_eq_some_iff.1 h
    obtain ⟨v, hv, h⟩ := Option.bind_eq_some_iff.1 h
    cases h
    refine line_operand a (by simp) ?_
    rw [show pad7 "LXI" = "LXI    " from rfl]
    simpa only [String.append_assoc] using Body.lxi p v (List.mem_of_getElem? hp) (hexText_of_hex16Text hv)
  | addr16 =>
    obtain ⟨v, hv, h⟩ := Option.bind_eq_some_iff.1 h
    cases h
    refine line_operand a (by simp) ?_
    simpa only [String.append_assoc] using Body.addr m v hm (hexText_of_hex16Text hv)
  | unknown =>
    obtain rfl := List.mem_singleton.1 hm
    cases h
    exact line_operand a (by simp [hex2]) (.unknown _ (hexText_hex2 _))

/-- Settles O30: a line that a step appends is the format of a record of the classifier, whose mnemonic is one of its
shape. -/
theorem printedLinesAreOfTheGrammar : Obligations.PrintedLinesAreOfTheGrammar := by
  intro s t hs h l hl
  obtain ⟨b, ops, hf⟩ := format_of_step_next hs h hl
  obtain ⟨x, hx, rfl⟩ := Option.map_eq_some_iff.1 hf
  rw [classify_eq] at hx
  exact line_of_operandText (mnemonic_mem_mnemonicsOf b) hx

end Sys2Proof.Machine
end

section
/-! PROOFS. The step (`40_decode_step.md`): that it is the meaning of the decoded instruction, what it writes and how a run
ends, what a meaning changes, and that a whole run is the reference listing of its stream. -/

namespace Sys2Proof.Machine

open Sys2Proof.Spec

variable {s t : State}

/-! ## The step is the meaning of the decoded instruction (R140, R141, R147) -/

theorem Input.take_bytesFrom {m n : Nat} (h : m ≤ n) (inp : Input) (a : Nat) :
    (inp.bytesFrom a n).take m = inp.bytesFrom a m := by
  induction n generalizing m a with
  | zero => rw [Nat.le_zero.1 h, List.take_zero, Input.bytesFrom]
  | succ n ih =>
    cases m with
    | zero => rw [List.take_zero, Input.bytesFrom]
    | succ m =>
      rw [Input.bytesFrom, Input.bytesFrom]
      cases inp.read a with
      | none => rfl
      | some v => exact congrArg (v :: ·) (ih (Nat.le_of_succ_le_succ h) (a + 1))

/-- Where an instruction stands with all its operand bytes, the step is its meaning. -/
theorem step_eq_exec {b : Byte} (hs : s.status = .running) (ha : s.pos ≤ Config.maxRenderAddr)
    (hb : s.input.read s.pos = some b) (hn : (s.operands b).length = oplen (classify b).shape) :
    step s = exec (assemble b (s.operands b)) s := by
  obtain ⟨l, hl⟩ := format_eq_some s.pos hn
  rw [step_eq_list hs ha ⟨hb, rfl, rfl, hn⟩ rfl hl, exec_assemble hn, listInstr_next ha hl]
  split_ifs with hu <;> simp [State.listRecord, hu]

/-- Settles O33: of the three bytes at `pos` the decoder takes the opcode and the operand bytes that the step reads. -/
theorem stepRunsTheDecodedInstruction : Obligations.StepRunsTheDecodedInstruction := by
  intro s i rest hs ha h
  rw [Input.bytesFrom] at h
  cases hb : s.input.read s.pos with
  | none => rw [hb] at h; cases h
  | some b =>
    rw [hb] at h
    have hn := Nat.le_of_not_lt fun hlt => by rw [decode_cons_missing hlt] at h; cases h
    have hops := Input.take_bytesFrom (oplen_le (classify b).shape) s.input (s.pos + 1)
    rw [decode_cons_ok hn, hops] at h
    cases h
    exact step_eq_exec hs ha hb (by rw [State.operands, ← hops, List.length_take_of_le hn])

/-! ## The end of the run (R142) -/

/-- Settles O35: it is the rule of the step at a boundary, for the marker EndOfStream. -/
theorem endOfStreamAtBoundaryEndsDone : Obligations.EndOfStreamAtBoundaryEndsDone := by
  intro s hs hr he
  rw [step_eq_atBoundary hs hr, he]
  rfl

theorem EndMarker.atBoundary_eq_done {e : EndMarker} (h : e.atBoundary = .done) : e = .endOfStream := by
  cases e with
  | endOfStream => rfl
  | ioError => cases h

theorem EndMarker.insideInstr_ne_done (e : EndMarker) : e.insideInstr ≠ .done := by
  cases e <;> simp [EndMarker.insideInstr]

/-- Settles O36: of the steps that end the run, the one inside an instruction leaves another status. -/
theorem doneOnlyAtEndOfStream : Obligations.DoneOnlyAtEndOfStream := by
  intro s t h ht
  have hs := running_of_step_next h
  cases stepCases_of_step_next h with
  | atBoundary hr => exact ⟨hs, hr, EndMarker.atBoundary_eq_done ht, rfl, rfl, rfl⟩
  | insideInstr b ha hb hn => exact absurd ht s.input.endMark.insideInstr_ne_done
  | list c l ha hc hp hl => cases hs.symm.trans ht

/-! ## What a step writes (R143) -/

/-- Settles O42: a step lists the record at `pos` or stops the run without a line. -/
theorem stepWritesOneLineOrEndsTheRun : Obligations.StepWritesOneLineOrEndsTheRun := by
  intro s t hs h
  cases stepCases_of_step_next h with
  | atBoundary hr => exact ⟨rfl, rfl, .inr ⟨s.input.endMark.atBoundary_ne_running, rfl, rfl⟩⟩
  | insideInstr b ha hb hn => exact ⟨rfl, rfl, .inr ⟨s.input.endMark.insideInstr_ne_running, rfl, rfl⟩⟩
  | list c l ha hc hp hl =>
    refine ⟨rfl, rfl, .inl ⟨hs, c.opcode, l, hp ▸ hc.opcode, ?_, rfl, ?_⟩⟩
    · rw [listRecord_pos, hc.kind]
    · rw [listRecord_diag, hc.kind]
      split_ifs
      · rfl
      · exact List.append_nil _

/-! ## The frame of a meaning (R21, R147, R230) -/

/-- The terms that are no instruction: MOV M,M, whose byte is HLT's, and UNKNOWN with a known byte (R86, R96). -/
theorem eq_of_not_wellFormed {i : Instr} (h : wellFormed i ≠ true) : i = .mov 6 6 ∨ ∃ b, i = .unknown b := by
  cases i with
  | mov d r => exact .inl (by simpa [wellFormed] using h)
  | unknown b => exact .inr ⟨b, rfl⟩
  | _ => exact absurd rfl h

/-- A well-formed instruction is Unknown exactly when its opcode byte is classified so. -/
theorem eq_unknown_iff {i : Instr} (h : wellFormed i = true) (raw : Byte) :
    i = .unknown raw ↔ (classify ((encode i).headD 0)).shape = .unknown ∧ (encode i).headD 0 = raw := by
  refine ⟨?_, fun ⟨hk, hraw⟩ => ?_⟩
  · rintro rfl
    exact ⟨congrArg Kind.shape (classify_unknown raw h), rfl⟩
  · have hops : (encode i).tail = [] := List.length_eq_zero_iff.1 (by rw [tail_encode_length h, hk]; rfl)
    have hw : wellFormed (.unknown raw) = true :=
      List.contains_iff_mem.2 (mem_unknownSet_of_classify (hraw ▸ hk))
    rw [← assemble_encode h, hops, hraw]
    exact assemble_encode hw

/-- Every meaning, that of an ill-formed term too, is the listing of a record that has a line, is as long as the encoding,
and is Unknown exactly for UNKNOWN, with its byte. -/
theorem exec_eq_listInstr_of_encoding (i : Instr) (s : State) :
    ∃ k b ops l, exec i s = listInstr k b ops s ∧ format ⟨s.pos, b, k, ops⟩ = some l ∧
      (encode i).length = 1 + oplen k.shape ∧ ∀ raw, i = .unknown raw ↔ k.shape = .unknown ∧ b = raw := by
  by_cases h : wellFormed i = true
  · have hn := tail_encode_length h
    obtain ⟨l, hl⟩ := format_eq_some s.pos hn
    refine ⟨_, _, _, l, exec_eq_listInstr h s, hl, ?_, eq_unknown_iff h⟩
    rw [← hn, encode_eq_cons i, List.length_cons, Nat.add_comm]
    rfl
  · rcases eq_of_not_wellFormed h with rfl | ⟨b, rfl⟩
    · exact ⟨_, _, _, _, rfl, rfl, rfl, fun raw => ⟨nofun, nofun⟩⟩
    · exact ⟨_, _, _, _, rfl, rfl, rfl, fun raw => by simp⟩

/-- Settles O26: a meaning that answers a next state has listed its record there. -/
theorem execFrame : Obligations.ExecFrame := by
  intro i s t h
  obtain ⟨k, b, ops, l, hlist, hl, hlen, hunknown⟩ := exec_eq_listInstr_of_encoding i s
  rw [hlist] at h
  have ha : s.pos ≤ Config.maxRenderAddr :=
    Nat.le_of_not_lt fun hlt => by rw [listInstr_refused hlt] at h; cases h
  rw [listInstr_next ha hl] at h
  cases h
  refine ⟨rfl, rfl, fun a => rfl, rfl, congrArg (s.pos + ·) hlen.symm, ⟨l, rfl⟩, fun hi => ?_, fun raw hi => ?_⟩
  · exact if_neg fun hk => hi b ((hunknown b).2 ⟨hk, rfl⟩)
  · obtain ⟨hk, rfl⟩ := (hunknown raw).1 hi
    exact if_pos hk

/-! ## The bytes of a stream (R50) -/

theorem streamOf_bytesFrom (bs : List Byte) (e : EndMarker) (a n : Nat) :
    (streamOf bs e).bytesFrom a n = (bs.drop a).take n := by
  induction n generalizing a with
  | zero => rw [Input.bytesFrom, List.take_zero]
  | succ n ih =>
    rw [Input.bytesFrom, streamOf_read]
    rcases Nat.lt_or_ge a bs.length with h | h
    · rw [List.getElem?_eq_getElem h, List.drop_eq_getElem_cons h, List.take_succ_cons, ← ih]
    · rw [List.getElem?_eq_none h, List.drop_eq_nil_of_le h, List.take_nil]

/-! ## The reference listing, one rule per case -/

/-- The report `r` with one instruction of opcode `b` and line `l` before it (R143). -/
def Report.precededBy (r : Report) (b : Byte) (l : String) : Report :=
  { r with out := l :: r.out, diag := (if (classify b).shape = .unknown then [diagLine b] else []) ++ r.diag }

section

variable (e : EndMarker) (fuel a : Nat) {b : Byte} {rest : List Byte}

theorem disassemble_short (h : rest.length < oplen (classify b).shape) :
    disassemble e (fuel + 1) a (b :: rest) = ⟨[], [], a + 1 + rest.length, e.insideInstr⟩ := if_pos h

theorem disassemble_cons {l : String} (h : oplen (classify b).shape ≤ rest.length)
    (hl : format ⟨a, b, classify b, rest.take (oplen (classify b).shape)⟩ = some l) :
    disassemble e (fuel + 1) a (b :: rest) =
      (disassemble e fuel (a + 1 + oplen (classify b).shape) (rest.drop (oplen (classify b).shape))).precededBy b l := by
  rw [disassemble, if_neg (Nat.not_lt.2 h), hl]
  rfl

end

/-! ## A whole run (R141 to R145) -/

theorem run_succ_of_next (M : Host.Core) {x y : M.State} {k : Nat} (h : M.step x = .next y) :
    M.run (k + 1) x = M.run k y := by
  rw [Host.Core.run, h]

theorem run_succ_of_step {k : Nat} (h : step s = .next t) : core.run (k + 1) s = core.run k t :=
  run_succ_of_next core h

/-- The state a run from `s` ends in when what it still does is `r`. -/
def State.reportedBy (s : State) (r : Report) : State :=
  { s with pos := r.pos, status := r.status, cur := none, out := s.out ++ r.out, diag := s.diag ++ r.diag }

theorem stopAt_eq_reportedBy (s : State) (p : Nat) (st : Status) : s.stopAt p st = s.reportedBy ⟨[], [], p, st⟩ := by
  simp [State.stopAt, State.reportedBy]

theorem listRecord_reportedBy (s : State) (r : Report) (a : Nat) (b : Byte) (ops : List Byte) (l : String) :
    (s.listRecord ⟨a, b, classify b, ops⟩ l).reportedBy r = s.reportedBy (r.precededBy b l) := by
  simp [State.listRecord, State.reportedBy, Report.precededBy]

/-- What is left of a list after its element at `a` and `n` more. -/
theorem drop_add_of_drop_eq_cons {α : Type} {l rest : List α} {a : Nat} {x : α} (h : l.drop a = x :: rest) (n : Nat) :
    l.drop (a + (1 + n)) = rest.drop n := by
  rw [← Nat.add_assoc, ← List.drop_drop, ← List.drop_drop, h, List.drop_one, List.tail_cons]

theorem operands_eq_take {bs : List Byte} {e : EndMarker} {b : Byte} {rest : List Byte} (hin : s.input = streamOf bs e)
    (hbs : bs.drop s.pos = b :: rest) : s.operands b = rest.take (oplen (classify b).shape) := by
  have hrest : bs.drop (s.pos + 1) = rest := drop_add_of_drop_eq_cons hbs 0
  rw [State.operands, hin, streamOf_bytesFrom, hrest]

/-- From any position a run is the reference listing of the bytes that are left, at most one step for each and one for the
end: the step and the listing make the same case split at the first of them. -/
theorem run_eq_disassemble {bs : List Byte} {e : EndMarker} {fuel : Nat} (hs : s.status = .running)
    (hin : s.input = streamOf bs e) (hfuel : (bs.drop s.pos).length < fuel)
    (hr : StartsRenderable fuel s.pos (bs.drop s.pos)) :
    (disassemble e fuel s.pos (bs.drop s.pos)).status ≠ .running ∧
    ∃ k ≤ fuel, core.run k s = .next (s.reportedBy (disassemble e fuel s.pos (bs.drop s.pos))) := by
  induction fuel generalizing s with
  | zero => exact absurd hfuel (Nat.not_lt_zero _)
  | succ fuel ih =>
    have hread : s.input.read s.pos = (bs.drop s.pos).head? := by rw [hin, streamOf_read, List.head?_drop]
    have hmark : s.input.endMark = e := by rw [hin, streamOf_endMark]
    have hone : 1 ≤ fuel + 1 := Nat.le_add_left 1 fuel
    cases hbs : bs.drop s.pos with
    | nil =>
      rw [hbs] at hread
      refine ⟨e.atBoundary_ne_running, 1, hone, ?_⟩
      rw [run_succ_of_step (step_eq_atBoundary hs hread), hmark, stopAt_eq_reportedBy]
      rfl
    | cons b rest =>
      rw [hbs] at hread hr hfuel
      obtain ⟨ha, hr⟩ := hr
      have hops := operands_eq_take hin hbs
      rcases Nat.lt_or_ge rest.length (oplen (classify b).shape) with hn | hn
      · rw [List.take_of_length_le hn.le] at hops
        rw [disassemble_short e fuel s.pos hn]
        refine ⟨e.insideInstr_ne_running, 1, hone, ?_⟩
        rw [run_succ_of_step (step_eq_insideInstr hs ha hread (by rwa [hops])), hmark, hops, stopAt_eq_reportedBy]
        rfl
      · have hcount := List.length_take_of_le hn
        obtain ⟨l, hl⟩ := format_eq_some s.pos hcount
        have hc : InstrRecord.OfStream ⟨s.pos, b, classify b, _⟩ s.input := ⟨hread, rfl, hops.symm, hcount⟩
        rw [disassemble_cons e fuel s.pos hn hl]
        rw [List.length_cons, Nat.lt_succ_iff] at hfuel
        rw [Nat.add_assoc, ← drop_add_of_drop_eq_cons hbs] at hr ⊢
        have hlen : (bs.drop (s.pos + (1 + oplen (classify b).shape))).length < fuel := by
          rw [drop_add_of_drop_eq_cons hbs, List.length_drop]
          omega
        obtain ⟨hend, k, hk, hrun⟩ := ih (s := s.listRecord ⟨s.pos, b, classify b, _⟩ l) hs hin hlen hr
        refine ⟨hend, k + 1, Nat.succ_le_succ hk, ?_⟩
        rw [run_succ_of_step (step_eq_list hs ha hc rfl hl), hrun, listRecord_reportedBy]
        rfl

/-- Settles O53: the run from reset is the case of the position 0. -/
theorem runWithRenderableStartsIsItsReferenceListing : Obligations.RunWithRenderableStartsIsItsReferenceListing :=
  fun bs e h => run_eq_disassemble (s := boot (streamOf bs e)) rfl rfl (Nat.lt_succ_self bs.length) h

/-- Where the bytes end at or below 0x10000 every instruction that has one starts at or below 0xFFFF (R120, R309). -/
theorem startsRenderable_of_length_le {fuel a : Nat} {bs : List Byte} (h : bs ≠ [] → a + bs.length ≤ 0x10000) :
    StartsRenderable fuel a bs := by
  induction fuel generalizing a bs with
  | zero => trivial
  | succ fuel ih =>
    cases bs with
    | nil => trivial
    | cons b rest =>
      have hle := h (List.cons_ne_nil b rest)
      rw [List.length_cons] at hle
      refine ⟨by omega, ih fun hne => ?_⟩
      have hlt := List.length_pos_of_ne_nil hne
      rw [List.length_drop] at hlt ⊢
      omega

/-- Settles O52: the instructions of a stream of at most 65536 bytes start at or below 0xFFFF. -/
theorem runOfAStreamIsItsReferenceListing : Obligations.RunOfAStreamIsItsReferenceListing :=
  fun bs e h => runWithRenderableStartsIsItsReferenceListing bs e
    (startsRenderable_of_length_le fun _ => by rwa [Nat.zero_add])

end Sys2Proof.Machine
end

section
/-! PROOFS. The line of each instruction, and the frame of its meaning (R111, R147): from the listing of a record to what
`Prints` says, and the instructions without an operand (`41_no_operand.md`). -/

namespace Sys2Proof.Machine

open Sys2Proof.Spec

variable {s : State} {i : Instr}

/-! ## From a listing to the line it prints -/

/-- A meaning that lists a known opcode prints the text of its record's line and changes nothing else: only an Unknown record
adds a line to `diag` (R143). -/
theorem prints_of_listInstr {k : Kind} {b : Byte} {ops : List Byte} {text : String} (ha : Renderable s)
    (hi : exec i s = listInstr k b ops s) (hk : k.shape ≠ .unknown)
    (hf : format ⟨s.pos, b, k, ops⟩ = some (hex4 s.pos ++ " " ++ text ++ "\n")) :
    Prints s i (1 + oplen k.shape) text := by
  rw [Prints, hi, listInstr_next ha hf, if_neg hk]
  rfl

/-- Shape NONE: the record has the empty operand text, so the line ends after the mnemonic (R111). -/
theorem prints_of_listNone {m : String} {b : Byte} (ha : Renderable s) (hi : exec i s = listNone m b s) :
    Prints s i 1 m :=
  prints_of_listInstr ha hi nofun (congrArg some (lineText_empty s.pos m))

/-! ## The instructions without an operand (R160 to R176) -/

/-- Settles O11: each of the sixteen meanings is a listing of shape NONE. -/
theorem noOperandInstructionsPrintTheirMnemonic : Obligations.NoOperandInstructionsPrintTheirMnemonic := by
  intro s ha
  have prints {i : Instr} {m : String} {b : Byte} (hi : exec i s = listNone m b s) : Prints s i 1 m :=
    prints_of_listNone ha hi
  exact ⟨prints rfl, prints rfl, prints rfl, prints rfl, prints rfl, prints rfl, prints rfl, prints rfl,
    prints rfl, prints rfl, prints rfl, prints rfl, prints rfl, prints rfl, prints rfl, prints rfl⟩

end Sys2Proof.Machine
end

section
/-! PROOFS. The line of an instruction that prints an operand (R111, R114), and the register-pair instructions
(`42_register_pair.md`). -/

namespace Sys2Proof.Machine

open Sys2Proof.Spec

variable {s : State} {i : Instr}

/-! ## A line with an operand -/

/-- The listing of a known opcode with an operand text prints the padded mnemonic, a blank and that text (R111); `front` is
what stands before the text. -/
theorem prints_of_operandText {m : String} {k : Shape} {f : Fields} {b : Byte} {ops : List Byte} {front x : String}
    (ha : Renderable s) (hi : exec i s = listInstr ⟨m, k, f⟩ b ops s) (hk : k ≠ .unknown)
    (hm : padr m Config.mnemonicWidth ++ " " = front) (hx : operandText ⟨s.pos, b, ⟨m, k, f⟩, ops⟩ = some x)
    (hne : x ≠ "") : Prints s i (1 + oplen k) (front ++ x) := by
  refine prints_of_listInstr ha hi hk ?_
  rw [format, hx, Option.map_some, lineText_operand hne, ← hm]
  simp only [String.append_assoc]

/-! ## The pair names: the model's tables hold the names of R33, R34 and R180 -/

theorem getElem?_RP_ARITH : ∀ p : BitVec 2, RP_ARITH[p.toNat]? = some (pairArith p) := by decide

theorem getElem?_RP_STACK : ∀ p : BitVec 2, RP_STACK[p.toNat]? = some (pairStack p) := by decide

theorem getElem?_RP_ARITH_bit : ∀ p : BitVec 1, RP_ARITH[p.toNat]? = some (pairBit p) := by decide

theorem pairArith_ne_empty : ∀ p : BitVec 2, pairArith p ≠ "" := by decide

theorem pairStack_ne_empty : ∀ p : BitVec 2, pairStack p ≠ "" := by decide

theorem pairBit_ne_empty : ∀ p : BitVec 1, pairBit p ≠ "" := by decide

/-! ## The operand of LXI (R60, R61, R92) -/

/-- The two operand bytes of a word hold its value (R60, R92). -/
theorem v16_lowByte_highByte (w : Word) : v16 (lowByte w) (highByte w) = w.toNat :=
  calc v16 (lowByte w) (highByte w)
    _ = (highByte w ++ lowByte w).toNat := (imm16_toNat _ _).symm
    _ = w.toNat := congrArg BitVec.toNat (highByte_append_lowByte w)

/-- Shape RP_IMM16 prints its pair and the value of its two operand bytes (R61, R114). -/
theorem operandText_rpImm16 (a : Nat) (m : String) (b : Byte) (p : BitVec 2) (w : Word) :
    operandText ⟨a, b, ⟨m, .rpImm16, .pair p⟩, [lowByte w, highByte w]⟩ =
      some (pairArith p ++ ",#$" ++ hex4 w.toNat) := by
  simp [operandText, getElem?_RP_ARITH, hex16Text, v16_lowByte_highByte]

/-! ## The register-pair instructions (R180 to R188) -/

/-- Settles O19: three meanings are listings of shape RP_ARITH and two of shape RP_STACK, each with its own table. -/
theorem pairInstructionsPrintThePairOfTheirContext : Obligations.PairInstructionsPrintThePairOfTheirContext := by
  intro s p ha
  have arith {i : Instr} {m front : String} {b : Byte} (hi : exec i s = listRpArith m b p s)
      (hm : padr m Config.mnemonicWidth ++ " " = front) : Prints s i 1 (front ++ pairArith p) :=
    prints_of_operandText ha hi nofun hm (getElem?_RP_ARITH p) (pairArith_ne_empty p)
  have stack {i : Instr} {m front : String} {b : Byte} (hi : exec i s = listRpStack m b p s)
      (hm : padr m Config.mnemonicWidth ++ " " = front) : Prints s i 1 (front ++ pairStack p) :=
    prints_of_operandText ha hi nofun hm (getElem?_RP_STACK p) (pairStack_ne_empty p)
  exact ⟨arith rfl rfl, arith rfl rfl, arith rfl rfl, stack rfl rfl, stack rfl rfl⟩

/-- Settles O18: the listing of shape RP_IMM16 with the two bytes of the immediate. -/
theorem lxiPrintsPairAndImmediate : Obligations.LxiPrintsPairAndImmediate := by
  intro s p w ha
  have hi : exec (.lxi p w) s = listRpImm16 "LXI" _ p w s := rfl
  have hprints : Prints s (.lxi p w) 3 ("LXI     " ++ (pairArith p ++ ",#$" ++ hex4 w.toNat)) :=
    prints_of_operandText ha hi nofun rfl (operandText_rpImm16 s.pos _ _ p w) (by simp)
  simpa only [String.append_assoc] using hprints

/-- Settles O20: both meanings are listings of shape RP_BD, whose bit looks up the first two names of its table. -/
theorem staxAndLdaxPrintBOrD : Obligations.StaxAndLdaxPrintBOrD := by
  intro s p ha
  have prints {i : Instr} {m front : String} {b : Byte} (hi : exec i s = listRpBD m b p s)
      (hm : padr m Config.mnemonicWidth ++ " " = front) : Prints s i 1 (front ++ pairBit p) :=
    prints_of_operandText ha hi nofun hm (getElem?_RP_ARITH_bit p) (pairBit_ne_empty p)
  exact ⟨prints rfl rfl, prints rfl rfl⟩

end Sys2Proof.Machine
end

section
/-! PROOFS. The register instructions (`43_register.md`): the line of INR, DCR, the eight register-arithmetic instructions,
MVI and MOV (R111, R114). -/

namespace Sys2Proof.Machine

open Sys2Proof.Spec

/-! ## The register names: the model's table holds the names of R32 -/

theorem getElem?_REG : ∀ r : BitVec 3, REG[r.toNat]? = some (regName r) := by decide

theorem regName_ne_empty : ∀ r : BitVec 3, regName r ≠ "" := by decide

/-! ## The operand texts with a comma (R114) -/

/-- Shape REG_IMM8 prints its register and the value of its operand byte (D10). -/
theorem operandText_regImm8 (a : Nat) (m : String) (b : Byte) (r : BitVec 3) (v : Byte) :
    operandText ⟨a, b, ⟨m, .regImm8, .reg r⟩, [v]⟩ = some (regName r ++ ",#$" ++ hex2 v.toNat) := by
  have hjoin : "," ++ ("#$" ++ hex2 v.toNat) = ",#$" ++ hex2 v.toNat := (String.append_assoc ..).symm
  simp [operandText, getElem?_REG, imm8Text, String.append_assoc, hjoin]

/-- Shape MOV prints the destination before the source. -/
theorem operandText_mov (a : Nat) (m : String) (b : Byte) (d r : BitVec 3) (ops : List Byte) :
    operandText ⟨a, b, ⟨m, .mov, .regs d r⟩, ops⟩ = some (regName d ++ "," ++ regName r) := by
  simp [operandText, getElem?_REG]

/-! ## The register instructions (R190 to R202) -/

/-- Settles O21: two meanings are listings of shape REG_D and eight of shape REG_S, and both shapes look up the one table. -/
theorem registerInstructionsPrintTheirRegister : Obligations.RegisterInstructionsPrintTheirRegister := by
  intro s r ha
  have prints {i : Instr} {m front : String} {k : Shape} {b : Byte} (hi : exec i s = listInstr ⟨m, k, .reg r⟩ b [] s)
      (hk : k = .regD ∨ k = .regS) (hm : padr m Config.mnemonicWidth ++ " " = front) :
      Prints s i 1 (front ++ regName r) := by
    rcases hk with rfl | rfl <;>
      exact prints_of_operandText ha hi nofun hm (getElem?_REG r) (regName_ne_empty r)
  have regD : Shape.regD = .regD ∨ Shape.regD = .regS := .inl rfl
  have regS : Shape.regS = .regD ∨ Shape.regS = .regS := .inr rfl
  exact ⟨prints rfl regD rfl, prints rfl regD rfl, prints rfl regS rfl, prints rfl regS rfl, prints rfl regS rfl,
    prints rfl regS rfl, prints rfl regS rfl, prints rfl regS rfl, prints rfl regS rfl, prints rfl regS rfl⟩

/-- Settles O22: the listing of shape REG_IMM8 with the one byte of the immediate. -/
theorem mviPrintsRegisterAndImmediate : Obligations.MviPrintsRegisterAndImmediate := by
  intro s r v ha
  have hi : exec (.mvi r v) s = listRegImm8 "MVI" _ r v s := rfl
  have hprints : Prints s (.mvi r v) 2 ("MVI     " ++ (regName r ++ ",#$" ++ hex2 v.toNat)) :=
    prints_of_operandText ha hi nofun rfl (operandText_regImm8 s.pos _ _ r v) (by simp)
  simpa only [String.append_assoc] using hprints

/-- Settles O23: the listing of shape MOV. The meaning of the term M,M, which no byte decodes to (R86), prints alike, so the
proof does not need that hypothesis. -/
theorem movPrintsDestinationThenSource : Obligations.MovPrintsDestinationThenSource := by
  intro s d r ha _
  have hi : exec (.mov d r) s = listMov "MOV" _ d r s := rfl
  have hprints : Prints s (.mov d r) 1 ("MOV     " ++ (regName d ++ "," ++ regName r)) :=
    prints_of_operandText ha hi nofun rfl (operandText_mov s.pos _ _ d r []) (by simp)
  simpa only [String.append_assoc] using hprints

end Sys2Proof.Machine
end

section
/-! PROOFS. The immediate instructions, IN and OUT (`44_immediate.md`): the line with one byte (R114). -/

namespace Sys2Proof.Machine

open Sys2Proof.Spec

/-- Shape IMM8 prints the value of its operand byte (D9). -/
theorem operandText_imm8 (a : Nat) (m : String) (b v : Byte) :
    operandText ⟨a, b, ⟨m, .imm8, .none⟩, [v]⟩ = some ("#$" ++ hex2 v.toNat) := rfl

/-! ## The immediate instructions (R211 to R220) -/

/-- Settles O13: each of the ten meanings is a listing of shape IMM8 with the one byte of its operand. -/
theorem immediatesPrintTheirByte : Obligations.ImmediatesPrintTheirByte := by
  intro s v ha
  have prints {i : Instr} {m front : String} {b : Byte} (hi : exec i s = listImm8 m b v s)
      (hm : padr m Config.mnemonicWidth ++ " " ++ "#$" = front) : Prints s i 2 (front ++ hex2 v.toNat) := by
    rw [← hm, String.append_assoc]
    exact prints_of_operandText ha hi nofun rfl (operandText_imm8 s.pos m b v) (by simp)
  exact ⟨prints rfl rfl, prints rfl rfl, prints rfl rfl, prints rfl rfl, prints rfl rfl,
    prints rfl rfl, prints rfl rfl, prints rfl rfl, prints rfl rfl, prints rfl rfl⟩

end Sys2Proof.Machine
end

section
/-! PROOFS. The direct-address instructions (`45_direct_address.md`): the line with a 16-bit address (R114, R225). -/

namespace Sys2Proof.Machine

open Sys2Proof.Spec

/-! ## The operand of shape ADDR16 (R61, R92, R114) -/

/-- Shape ADDR16 prints the value of its two operand bytes. -/
theorem operandText_addr16 (a : Nat) (m : String) (b : Byte) (w : Word) :
    operandText ⟨a, b, ⟨m, .addr16, .none⟩, [lowByte w, highByte w]⟩ = some ("$" ++ hex4 w.toNat) := by
  simp [operandText, hex16Text, v16_lowByte_highByte]

/-- The listing of shape ADDR16 prints the padded mnemonic, a blank and `$` (together `front`), then the address. -/
theorem prints_of_listAddr16 {s : State} {i : Instr} {m front : String} {b : Byte} {w : Word} (ha : Renderable s)
    (hi : exec i s = listAddr16 m b w s) (hm : padr m Config.mnemonicWidth ++ " " ++ "$" = front) :
    Prints s i 3 (front ++ hex4 w.toNat) := by
  rw [← hm, String.append_assoc]
  exact prints_of_operandText ha hi nofun rfl (operandText_addr16 s.pos m b w) (by simp)

/-! ## The direct-address instructions (R226 to R229) -/

/-- Settles O14: each of the four meanings is a listing of shape ADDR16. -/
theorem directAddressesPrintTheirAddress : Obligations.DirectAddressesPrintTheirAddress := by
  intro s w ha
  exact ⟨prints_of_listAddr16 ha rfl rfl, prints_of_listAddr16 ha rfl rfl,
    prints_of_listAddr16 ha rfl rfl, prints_of_listAddr16 ha rfl rfl⟩

end Sys2Proof.Machine
end

section
/-! PROOFS. The control-transfer instructions (`46_control_transfer.md`): jumps, calls, returns and RST print their line and
follow no target (R230, R259). -/

namespace Sys2Proof.Machine

open Sys2Proof.Spec

/-! ## Jumps, calls and returns (R231 to R257) -/

/-- Settles O15: each of the nine meanings is a listing of shape ADDR16. -/
theorem jumpsPrintTheirTarget : Obligations.JumpsPrintTheirTarget := by
  intro s w ha
  refine ⟨?_, ?_, ?_, ?_, ?_, ?_, ?_, ?_, ?_⟩ <;> exact prints_of_listAddr16 ha rfl rfl

/-- Settles O16: each of the nine meanings is a listing of shape ADDR16. -/
theorem callsPrintTheirTarget : Obligations.CallsPrintTheirTarget := by
  intro s w ha
  refine ⟨?_, ?_, ?_, ?_, ?_, ?_, ?_, ?_, ?_⟩ <;> exact prints_of_listAddr16 ha rfl rfl

/-- Settles O12: each of the nine meanings is a listing of shape NONE. -/
theorem returnsPrintTheirMnemonic : Obligations.ReturnsPrintTheirMnemonic := by
  intro s ha
  refine ⟨?_, ?_, ?_, ?_, ?_, ?_, ?_, ?_, ?_⟩ <;> exact prints_of_listNone ha rfl

/-! ## RST (R258) -/

/-- The byte 0xC7 with `n` in bits 5:3 is the encoding of RST `n`. -/
theorem rstOpcode_eq_append : ∀ n : BitVec 3,
    (0xC7 ||| (n.zeroExtend 8 <<< 3) : Byte) = 0b11#2 ++ n ++ 0b111#3 := by decide

/-- Settles O10: the byte is the encoding of RST, which the classifier gives the vector and its target. -/
theorem rstKindHoldsVectorAndTarget : Obligations.RstKindHoldsVectorAndTarget := by
  intro n
  rw [rstOpcode_eq_append, classify_rst, rstTarget, Nat.mul_comm]

/-- A vector is printed as its decimal digit (R9). -/
theorem dec1_eq_getD_digits : ∀ n : BitVec 3,
    dec1 n.toNat = ["0", "1", "2", "3", "4", "5", "6", "7"].getD n.toNat "" := by decide

/-- Settles O17: the listing of shape RST, whose operand text is the digit of the vector and not the target. -/
theorem rstPrintsItsVector : Obligations.RstPrintsItsVector := by
  intro s n ha
  rw [← dec1_eq_getD_digits]
  have hi : exec (.rst n) s = listRst "RST" _ n s := rfl
  exact prints_of_operandText ha hi nofun rfl rfl (by simp [dec1])

end Sys2Proof.Machine
end

section
/-! PROOFS. The Unknown opcodes (`47_unknown.md`): the two lines each of them writes (R119, R271). -/

namespace Sys2Proof.Machine

/-- The line of an Unknown opcode: UNKNOWN fills the mnemonic field, and the operand text is the byte itself (R113, R271). -/
theorem format_unknown (a : Nat) (b : Byte) :
    format ⟨a, b, ⟨"UNKNOWN", .unknown, .raw b⟩, []⟩ = some (hex4 a ++ " UNKNOWN " ++ hex2 b.toNat ++ "\n") := by
  have hne : hex2 b.toNat ≠ "" := by simp [hex2]
  have hfront : " " ++ padr "UNKNOWN" Config.mnemonicWidth ++ " " = " UNKNOWN " := rfl
  rw [format, operandText, Option.map_some, lineText_operand hne, ← hfront]
  simp only [String.append_assoc]

/-- Settles O24: the meaning is the listing of the Unknown record. The meaning of the term with a known byte, which nothing
decodes to (R96), writes alike, so the proof does not need that hypothesis. -/
theorem unknownOpcodePrintsAndLogs : Obligations.UnknownOpcodePrintsAndLogs := by
  intro s b ha _
  have hi : exec (.unknown b) s = listInstr ⟨"UNKNOWN", .unknown, .raw b⟩ b [] s := rfl
  rw [hi, listInstr_next ha (format_unknown s.pos b), if_pos rfl]
  rfl

end Sys2Proof.Machine
end

section
/-! PROOFS. The exceptions (`60_exceptions.md`): which read raises which exception and what the step leaves, where a step is
refused, and that every run makes progress and ends. -/

namespace Sys2Proof.Machine

variable {s s' t : State} {b : Byte} {i : Nat}

/-! ## An end marker met inside an instruction (R303, R304) -/

/-- If the first address without a byte is `i` after `a`, only the `i` bytes before it stand there. -/
theorem bytesFrom_length_of_first_missing {inp : Input} {a n : Nat} (hi : i < n)
    (hsome : ∀ j < i, (inp.read (a + j)).isSome = true) (hnone : inp.read (a + i) = none) :
    (inp.bytesFrom a n).length = i := by
  have hfull : (inp.bytesFrom a i).length = i := bytesFrom_length_eq.2 hsome
  have hmiss : (inp.bytesFrom a (i + 1)).length ≠ i + 1 := fun h => by
    simpa [hnone] using bytesFrom_length_eq.1 h i (Nat.lt_succ_self i)
  rw [← Input.take_bytesFrom hi.le, List.length_take] at hfull
  rw [← Input.take_bytesFrom (Nat.succ_le_of_lt hi), List.length_take] at hmiss
  omega

/-- The exception of a read that meets the end marker in place of operand `i` of opcode `b` at address `a`. -/
def EndMarker.operandException (a : Nat) (b : Byte) (i : Nat) : EndMarker → Exception
  | .endOfStream => .truncatedInstruction a b i
  | .ioError => .ioError a

/-- The first operand byte missing decides the exception and where `pos` stays (R303, R304). -/
theorem fetch_of_first_missing (ha : s.pos ≤ Config.maxRenderAddr) (hb : s.input.read s.pos = some b)
    (hi : i < oplen (classify b).shape) (hsome : ∀ j < i, (s.input.read (s.pos + 1 + j)).isSome = true)
    (hnone : s.input.read (s.pos + 1 + i) = none) :
    fetch s = .raised (s.input.endMark.operandException s.pos b i) { s with pos := s.pos + 1 + i } := by
  have hlen := bytesFrom_length_of_first_missing hi hsome hnone
  rcases fetch_cases s with ⟨hr, -⟩ | ⟨hr, -⟩ | ⟨b', hb', hf⟩
  · cases hr.symm.trans hb
  · cases hr.symm.trans hb
  cases hb.symm.trans hb'
  rcases hf with ⟨hlt, -⟩ | ⟨-, _, rfl, ⟨heq, -⟩ | ⟨-, he, hf⟩ | ⟨-, he, hf⟩⟩
  · omega
  · omega
  · rw [hf, hlen, he]; rfl
  · rw [hf, hlen, he]; rfl

theorem fetch_of_readFailure (hr : s.input.read s.pos = none) (he : s.input.endMark = .ioError) :
    fetch s = .raised (.ioError s.pos) s := by
  rw [fetch, nextByte_fail hr he]
  rfl

/-- An exception of the fetch is the whole effect of the step (R308). -/
theorem step_of_fetch_raised {e : Exception} (hs : s.status = .running) (hf : fetch s = .raised e s') :
    step s = .next (s'.raise e) := by
  rw [step_running hs, runStep, hf]

/-- Settles O37: both failing reads raise `IOError` of the instruction's address, which the step turns into ABORT_IO. -/
theorem readFailureAbortsTheRun : Obligations.ReadFailureAbortsTheRun := by
  intro s hs he
  refine ⟨fun hr => ?_, fun b i ha hb hi hsome hnone => ?_⟩
  · have hf := fetch_of_readFailure hr he
    exact ⟨hf, step_of_fetch_raised hs hf⟩
  · have hf := fetch_of_first_missing ha hb hi hsome hnone
    rw [he] at hf
    exact ⟨hf, step_of_fetch_raised hs hf⟩

/-- Settles O38: under the marker EndOfStream the operand byte missing raises `TruncatedInstruction`. -/
theorem streamEndInsideInstructionTruncates : Obligations.StreamEndInsideInstructionTruncates := by
  intro s b i hs he ha hb hi hsome hnone
  have hf := fetch_of_first_missing ha hb hi hsome hnone
  rw [he] at hf
  exact ⟨hf, step_of_fetch_raised hs hf⟩

/-! ## The refusal (R307, R309) -/

theorem running_of_step_refused {r : Refusal} (h : step s = .refused r) : s.status = .running := by
  by_contra hs
  obtain ⟨f, -, hf⟩ := step_terminal hs
  cases hf.symm.trans h

/-- Settles O39: of the cases of a step from RUNNING one is a refusal, and a step in a terminal status is a fault. -/
theorem stepRefusedExactlyAboveFFFF : Obligations.StepRefusedExactlyAboveFFFF := by
  refine fun s r => ⟨fun h => ?_, ?_⟩
  · have hs := running_of_step_refused h
    have hc := step_cases hs
    rw [h] at hc
    cases hc with
    | refused b hb ha => exact ⟨hs, Option.isSome_of_eq_some hb, ha, rfl⟩
  · rintro ⟨hs, hb, ha, rfl⟩
    obtain ⟨b, hb⟩ := Option.isSome_iff_exists.1 hb
    exact step_eq_refused hs hb ha

/-! ## The invariant violation (R306) -/

theorem fetch_ne_invariantViolation (s s' : State) : fetch s ≠ .raised .internalInvariantViolation s' := by
  rcases fetch_cases s with ⟨-, -, hf⟩ | ⟨-, -, hf⟩ | ⟨b, -, ⟨-, hf⟩ | ⟨-, ops, -, ⟨-, hf⟩ | ⟨-, -, hf⟩ | ⟨-, -, hf⟩⟩⟩ <;>
    rw [hf] <;> nofun

theorem EndMarker.atBoundary_ne_abortInvariant (e : EndMarker) : e.atBoundary ≠ .abortInvariant := by
  cases e <;> simp [EndMarker.atBoundary]

theorem EndMarker.insideInstr_ne_abortInvariant (e : EndMarker) : e.insideInstr ≠ .abortInvariant := by
  cases e <;> simp [EndMarker.insideInstr]

/-- Settles O41: the decoder is given all the operand bytes, every record of the stream has a line, and no end marker leaves
ABORT_INVARIANT. -/
theorem invariantViolationIsUnreachable : Obligations.InvariantViolationIsUnreachable := by
  refine fun s => ⟨fetch_ne_invariantViolation s, fun t h ht => ?_⟩
  have hs := running_of_step_next h
  cases stepCases_of_step_next h with
  | atBoundary hr => exact s.input.endMark.atBoundary_ne_abortInvariant ht
  | insideInstr b ha hb hn => exact s.input.endMark.insideInstr_ne_abortInvariant ht
  | list c l ha hc hp hl => cases hs.symm.trans ht

/-! ## An Unknown opcode raises no exception (R302) -/

/-- Settles O43: an opcode of shape UNKNOWN is a whole instruction, and the step lists its record. -/
theorem unknownOpcodeIsAnOrdinaryStep : Obligations.UnknownOpcodeIsAnOrdinaryStep := by
  intro s b hs ha hb hk
  have hkind := classify_unknown b (List.contains_iff_mem.2 (mem_unknownSet_of_classify hk))
  have hc : InstrRecord.OfStream ⟨s.pos, b, ⟨"UNKNOWN", .unknown, .raw b⟩, []⟩ s.input := ⟨hb, hkind.symm, rfl, rfl⟩
  exact step_eq_list hs ha hc rfl (format_unknown s.pos b)

/-! ## Progress and the end of a run (R315) -/

/-- Settles O44: a step that lists a record consumes its opcode byte, and the other next states are over. -/
theorem runningStepMakesProgress : Obligations.RunningStepMakesProgress := by
  intro s hs
  have hc := step_cases hs
  generalize step s = o at hc ⊢
  cases hc with
  | atBoundary hr => exact .inl ⟨_, rfl, .inl s.input.endMark.atBoundary_ne_running⟩
  | refused b hb ha => exact .inr ⟨_, rfl⟩
  | insideInstr b ha hb hn => exact .inl ⟨_, rfl, .inl s.input.endMark.insideInstr_ne_running⟩
  | list c l ha hc hp hl => exact .inl ⟨_, rfl, .inr (by rw [listRecord_pos]; omega)⟩

theorem run_one_of_refused (M : Host.Core) {x : M.State} {r : M.Refusal} (h : M.step x = .refused r) :
    M.run 1 x = .refused r := by
  rw [Host.Core.run, h]

/-- Settles O51, by strong induction on the number of bytes left: each step that goes on consumes at least one of them. -/
theorem everyRunEnds : Obligations.EveryRunEnds := by
  intro s hi hs
  induction hn : s.input.length - s.pos using Nat.strong_induction_on generalizing s with
  | _ n ih =>
    subst hn
    rcases runningStepMakesProgress s hs with ⟨t, ht, hover⟩ | ⟨r, hr⟩
    · by_cases hts : t.status = .running
      · have hit := everyStepKeepsTheInvariant s t hi ht
        have hpos := hover.resolve_left (not_not_intro hts)
        have hin := hit.inRange
        obtain ⟨-, hinput, -⟩ := stepWritesOneLineOrEndsTheRun s t hs ht
        rw [hinput] at hin
        obtain ⟨k, hk, hrun⟩ := ih _ (by rw [hinput]; omega) t hit hts rfl
        rw [hinput] at hk hrun
        exact ⟨k + 1, by omega, by rwa [run_succ_of_step ht]⟩
      · exact ⟨1, Nat.le_add_left 1 _, .inl ⟨t, run_succ_of_step ht, hts⟩⟩
    · obtain ⟨-, hb, ha, rfl⟩ := (stepRefusedExactlyAboveFFFF s r).1 hr
      have hlt : s.pos < s.input.length := (Memory.read_isSome hi.stream s.pos).1 hb
      exact ⟨1, Nat.le_add_left 1 _, .inr ⟨by omega, s.pos, ha, run_one_of_refused core hr⟩⟩

end Sys2Proof.Machine
end
